-- ==== Sys2Proof/Word.lean ====
section
/-! DEFINITION. The widths of the block (R8, R11) and the names of its lines and levels.
All values are unsigned; bit 0 is the least significant (R11). A time is a natural number of nanoseconds (R15). -/
namespace Sys2Proof

/-- One bit of a port or a register (R21): a level or a flag, never computed with as a word. -/
abbrev Bit := Bool

/-- The four data lines (R8): `d[i]` is `data<i>` (R30, R50). -/
abbrev Nibble := BitVec 4

/-- A byte transfer, or a request's payload (R8, R63). -/
abbrev Byte := BitVec 8

/-- A request word `REQ[10:0]` (R63). -/
abbrev ReqWord := BitVec 11

/-- The six lines to the display (R8, R30). -/
inductive Line where
  | registerSelect
  | enable
  | data (i : Fin 4)
deriving DecidableEq, Repr, Inhabited

/-- What the display can see on one line (R31; I3 adds "undriven"). -/
inductive Level where
  | low
  | high
  | undriven
deriving DecidableEq, Repr, Inhabited

/-- The level of a driven bit. -/
def Level.ofBit (b : Bit) : Level := if b then .high else .low

end Sys2Proof
end

