-- ==== Sys2Proof/Config.lean ====
section
/-! DEFINITION. The parameters of the block (R7, R9), their defaults, and the free values the spec leaves
to the environment (R16, I3, I8). -/
namespace Sys2Proof

/-- The timing floors of R7, in nanoseconds; each is a lower bound on a wait, none an upper bound. -/
structure Timing where
  T_SETUP_MIN   : Nat
  T_EN_HIGH_MIN : Nat
  T_SETTLE_MIN  : Nat
  T_POWERUP_MIN : Nat
  T_WAKE1_MIN   : Nat
  T_WAKE2_MIN   : Nat
  T_CLEAR_MIN   : Nat
deriving DecidableEq, Repr, Inhabited

/-- The encoding parameters of R9: the command bytes of the initialization sequence and the set of
long-execution commands. -/
structure CommandBytes where
  FUNCSET_BASE   : Byte
  DISPOFF        : Byte
  CLEARDISP      : Byte
  ENTRYMODE      : Byte
  DISPON_BASE    : Byte
  LONG_EXEC_CMDS : List Byte
deriving DecidableEq, Repr, Inhabited

/-- The whole parameter set "as a configuration record" (00_scope.md section 3). -/
structure Params where
  timing : Timing
  cmds   : CommandBytes
deriving DecidableEq, Repr, Inhabited

/-- The defaults of R7. -/
def Timing.default : Timing where
  T_SETUP_MIN   := 200
  T_EN_HIGH_MIN := 450
  T_SETTLE_MIN  := 40000
  T_POWERUP_MIN := 40000000
  T_WAKE1_MIN   := 4100000
  T_WAKE2_MIN   := 100000
  T_CLEAR_MIN   := 1520000

/-- The defaults of R9. -/
def CommandBytes.default : CommandBytes where
  FUNCSET_BASE   := 0x28
  DISPOFF        := 0x08
  CLEARDISP      := 0x01
  ENTRYMODE      := 0x06
  DISPON_BASE    := 0x0C
  LONG_EXEC_CMDS := [0x01, 0x02, 0x03]

def Params.default : Params where
  timing := Timing.default
  cmds   := CommandBytes.default

/-- R7: "every parameter is a positive natural number". -/
def Timing.positive (T : Timing) : Bool :=
  0 < T.T_SETUP_MIN && 0 < T.T_EN_HIGH_MIN && 0 < T.T_SETTLE_MIN && 0 < T.T_POWERUP_MIN
    && 0 < T.T_WAKE1_MIN && 0 < T.T_WAKE2_MIN && 0 < T.T_CLEAR_MIN

/-- The orderings R7 says hold for the defaults; only the durations of R164 use them. -/
def Timing.ordered (T : Timing) : Bool :=
  T.T_SETTLE_MIN ≤ T.T_WAKE2_MIN && T.T_WAKE2_MIN ≤ T.T_WAKE1_MIN && T.T_SETTLE_MIN ≤ T.T_CLEAR_MIN

/-- R9: the wake nibble, fixed by the document. -/
def WAKE_NIBBLE : Nibble := 0x3

/-- R9: the nibble that switches to 4-bit mode, fixed by the document. -/
def MODE4_NIBBLE : Nibble := 0x2

/-- FREE VALUE (R16, R83, I8; log 1): by how much the `n`-th wait exceeds its floor. A wait lasts
`tmin + waitSlack n`: any finite duration at or above the floor, and nothing else is known of it. -/
opaque Config.waitSlack : Nat → Nat

/-- FREE VALUE (R31, I3; log 3): the level of a line the block does not drive and has not released,
at the observation named by the number. -/
opaque Config.unboundLevel : Nat → Line → Level

end Sys2Proof
end

