-- ==== Sys2Proof/Syntax.lean ====
section
/-! DEFINITION. The instructions: one constructor for each row of `spec/opcode_table.json`.
The first sixteen are request words (R63 to R69, R76); the last nine are transfers on the display's lines
(R71 to R73), which the sequencer performs inside a request. -/
namespace Sys2Proof

inductive Instr where
  /-- `INIT [f, c, b]` (R100): font, cursor and blink bits (R67). -/
  | init (f c b : Bit)
  /-- `CMD imm8` (R96). -/
  | cmd (p : Byte)
  /-- `DATA imm8` (R97). -/
  | data (p : Byte)
  /-- `RELEASE` (R120). -/
  | release
  /-- `OP = 0b000`, reserved (R69). -/
  | illegalOp000 (p : Byte)
  /-- `INIT` with a reserved payload bit set (R67, R69). -/
  | illegalInitRsvd (p : Byte)
  /-- `RELEASE` with a payload other than zero (R68, R69). -/
  | illegalReleasePayload (p : Byte)
  /-- `OP = 0b101`, reserved (R69). -/
  | illegalOp101 (p : Byte)
  /-- `OP = 0b110`, reserved (R69). -/
  | illegalOp110 (p : Byte)
  /-- `OP = 0b111`, reserved (R69). -/
  | illegalOp111 (p : Byte)
  /-- `CLEAR` = `CMD 0x01` (R76). -/
  | clear
  /-- `HOME` = `CMD 0x02` (R76). -/
  | home
  /-- `SETPOS 0, c` = `CMD 0x80 + c` (R76). -/
  | setpos0 (col : BitVec 4)
  /-- `SETPOS 1, c` = `CMD 0xC0 + c` (R76). -/
  | setpos1 (col : BitVec 4)
  /-- `SHIFTL` = `CMD 0x18` (R76). -/
  | shiftl
  /-- `SHIFTR` = `CMD 0x1C` (R76). -/
  | shiftr
  /-- The wake nibble 0x3, a lone nibble (R109). -/
  | lcdWake
  /-- The nibble 0x2 that switches to 4-bit mode, a lone nibble (R110). -/
  | lcdMode4
  /-- Function set with font bit `f` (R111). -/
  | lcdFuncset (f : Bit)
  /-- Display off (R112). -/
  | lcdDispoff
  /-- Clear display (R113). -/
  | lcdClear
  /-- Entry mode set (R114). -/
  | lcdEntry
  /-- Display on with cursor and blink bits (R115). -/
  | lcdDispon (c b : Bit)
  /-- Any command byte sent by CMD (R96). -/
  | lcdCmd (p : Byte)
  /-- Any data byte sent by DATA (R97). -/
  | lcdData (p : Byte)
deriving DecidableEq, Repr

/-- The row's name in `spec/opcode_table.json`. -/
def Instr.mnemonic : Instr → String
  | .init _ _ _ => "INIT"
  | .cmd _ => "CMD"
  | .data _ => "DATA"
  | .release => "RELEASE"
  | .illegalOp000 _ => "ILLEGAL_OP000"
  | .illegalInitRsvd _ => "ILLEGAL_INIT_RSVD"
  | .illegalReleasePayload _ => "ILLEGAL_RELEASE_PAYLOAD"
  | .illegalOp101 _ => "ILLEGAL_OP101"
  | .illegalOp110 _ => "ILLEGAL_OP110"
  | .illegalOp111 _ => "ILLEGAL_OP111"
  | .clear => "CLEAR"
  | .home => "HOME"
  | .setpos0 _ => "SETPOS0"
  | .setpos1 _ => "SETPOS1"
  | .shiftl => "SHIFTL"
  | .shiftr => "SHIFTR"
  | .lcdWake => "LCD_WAKE"
  | .lcdMode4 => "LCD_MODE4"
  | .lcdFuncset _ => "LCD_FUNCSET"
  | .lcdDispoff => "LCD_DISPOFF"
  | .lcdClear => "LCD_CLEAR"
  | .lcdEntry => "LCD_ENTRY"
  | .lcdDispon _ _ => "LCD_DISPON"
  | .lcdCmd _ => "LCD_CMD"
  | .lcdData _ => "LCD_DATA"

/-- Whether the instruction is a word of the request port (format REQ11) rather than a display transfer. -/
def Instr.isRequest : Instr → Bool
  | .init _ _ _ | .cmd _ | .data _ | .release => true
  | .illegalOp000 _ | .illegalInitRsvd _ | .illegalReleasePayload _ => true
  | .illegalOp101 _ | .illegalOp110 _ | .illegalOp111 _ => true
  | .clear | .home | .setpos0 _ | .setpos1 _ | .shiftl | .shiftr => true
  | .lcdWake | .lcdMode4 | .lcdFuncset _ | .lcdDispoff | .lcdClear | .lcdEntry => false
  | .lcdDispon _ _ | .lcdCmd _ | .lcdData _ => false

end Sys2Proof
end

