-- ==== Sys2Proof/WellFormed.lean ====
section
/-! DEFINITION. Which terms of `Instr` are instructions.
Two rows of the table match "only words ... that do not match" another row: the reserved INIT words (R67, R69)
and the reserved RELEASE words (R68, R69). Every operand value of every other constructor is legal (R65, R66). -/
namespace Sys2Proof

def Instr.wf : Instr → Bool
  | .illegalInitRsvd p => p.extractLsb' 3 5 != 0#5
  | .illegalReleasePayload p => p != 0#8
  | .init _ _ _ | .cmd _ | .data _ | .release => true
  | .illegalOp000 _ | .illegalOp101 _ | .illegalOp110 _ | .illegalOp111 _ => true
  | .clear | .home | .setpos0 _ | .setpos1 _ | .shiftl | .shiftr => true
  | .lcdWake | .lcdMode4 | .lcdFuncset _ | .lcdDispoff | .lcdClear | .lcdEntry => true
  | .lcdDispon _ _ | .lcdCmd _ | .lcdData _ => true

end Sys2Proof
end

