-- ==== Sys2Proof/Decode.lean ====
section
/-! DEFINITION. Decoding and encoding: the request word (R63 to R70, R76) and the display-side transfers
(R71 to R73, R111 to R115). Decoding a request word is total: a reserved word is an instruction of its own
(R69). What is no request word and no transfer of the table is rejected by a name. -/
namespace Sys2Proof

/-! ### Fields (R63, R65 to R68) -/

/-- `OP = REQ[10:8]`. -/
def opField (w : ReqWord) : BitVec 3 := w.extractLsb' 8 3

/-- `PAYLOAD = REQ[7:0]`. -/
def payloadField (w : ReqWord) : Byte := w.extractLsb' 0 8

/-- The request word `{op, payload}`. -/
def requestWord (op : BitVec 3) (payload : Byte) : ReqWord := op ++ payload

/-- The payload of INIT (R67): F is bit 0, C is bit 1, B is bit 2, bits 7 to 3 are zero. -/
def initPayload (f c b : Bit) : Byte :=
  0#5 ++ BitVec.ofBool b ++ BitVec.ofBool c ++ BitVec.ofBool f

/-- The command byte `0x80 + c` that positions the cursor on line 0 (R10). -/
def setpos0Byte (col : BitVec 4) : Byte := 0x80#8 + col.setWidth 8

/-- The command byte `0xC0 + c` that positions the cursor on line 1 (R10). -/
def setpos1Byte (col : BitVec 4) : Byte := 0xC0#8 + col.setWidth 8

/-! ### The request word -/

/-- The words of `OP = CMD`: the rows of R76 first, then any other command byte (log 8). -/
def decodeCommand (p : Byte) : Instr :=
  if p = 0x01#8 then .clear
  else if p = 0x02#8 then .home
  else if p = 0x18#8 then .shiftl
  else if p = 0x1C#8 then .shiftr
  else if p.extractLsb' 4 4 = 0x8#4 then .setpos0 (p.extractLsb' 0 4)
  else if p.extractLsb' 4 4 = 0xC#4 then .setpos1 (p.extractLsb' 0 4)
  else .cmd p

/-- The words of `OP = INIT` (R67, R69). -/
def decodeInit (p : Byte) : Instr :=
  if p.extractLsb' 3 5 = 0#5 then .init (p.getLsbD 0) (p.getLsbD 1) (p.getLsbD 2)
  else .illegalInitRsvd p

/-- The words of `OP = RELEASE` (R68, R69). -/
def decodeRelease (p : Byte) : Instr :=
  if p = 0#8 then .release else .illegalReleasePayload p

/-- R64, R69, R70: total on every 11-bit word. -/
def decodeRequest (w : ReqWord) : Instr :=
  let op := opField w
  let p := payloadField w
  if op = 0b001#3 then decodeInit p
  else if op = 0b010#3 then decodeCommand p
  else if op = 0b011#3 then .data p
  else if op = 0b100#3 then decodeRelease p
  else if op = 0b000#3 then .illegalOp000 p
  else if op = 0b101#3 then .illegalOp101 p
  else if op = 0b110#3 then .illegalOp110 p
  else .illegalOp111 p

/-- R69: a request word is illegal when its OP is reserved, when INIT has a reserved payload bit set, or when
RELEASE has a payload. -/
def illegalWord (w : ReqWord) : Bool :=
  opField w == 0b000#3 || opField w == 0b101#3 || opField w == 0b110#3 || opField w == 0b111#3
    || (opField w == 0b001#3 && (payloadField w).extractLsb' 3 5 != 0#5)
    || (opField w == 0b100#3 && payloadField w != 0#8)

/-! ### Both sides in one type -/

/-- What an instruction is written as: a request word (format REQ11), or what stands on RS and the data
lines in one transfer (formats LCD_NIBBLE and LCD_BYTE; a byte is two nibbles, high first, R71). -/
inductive Encoded where
  | request (w : ReqWord)
  | nibble (rs : Bit) (d : Nibble)
  | byte (rs : Bit) (b : Byte)
deriving DecidableEq, Repr

/-- Why something is no instruction. -/
inductive DecodeError where
  /-- A lone nibble other than the wake nibble and the mode nibble: the block sends none (R53, R72). -/
  | notALoneNibble
  /-- A number that does not fit the width of its format. -/
  | tooWide
  /-- A width that no format has. -/
  | noSuchFormat
deriving DecidableEq, Repr

/-- The lone nibbles of the table (R109, R110). -/
def decodeNibble (rs : Bit) (d : Nibble) : Except DecodeError Instr :=
  if !rs && d == WAKE_NIBBLE then .ok .lcdWake
  else if !rs && d == MODE4_NIBBLE then .ok .lcdMode4
  else .error .notALoneNibble

/-- The bytes of the table (R73, R111 to R115): a byte of the init sequence is named as that, any other
command byte is `LCD_CMD` (log 8). -/
def decodeByte (rs : Bit) (b : Byte) : Instr :=
  if rs then .lcdData b
  else if b = 0x28#8 then .lcdFuncset false
  else if b = 0x2C#8 then .lcdFuncset true
  else if b = 0x08#8 then .lcdDispoff
  else if b = 0x01#8 then .lcdClear
  else if b = 0x06#8 then .lcdEntry
  else if b.extractLsb' 2 6 = 0b000011#6 then .lcdDispon (b.getLsbD 1) (b.getLsbD 0)
  else .lcdCmd b

def decode : Encoded → Except DecodeError Instr
  | .request w => .ok (decodeRequest w)
  | .nibble rs d => decodeNibble rs d
  | .byte rs b => .ok (decodeByte rs b)

/-- The words of an instruction, from the rows of the table and R63 to R69, R73, R76. -/
def encode : Instr → Encoded
  | .init f c b => .request (requestWord 0b001 (initPayload f c b))
  | .cmd p => .request (requestWord 0b010 p)
  | .data p => .request (requestWord 0b011 p)
  | .release => .request (requestWord 0b100 0x00)
  | .illegalOp000 p => .request (requestWord 0b000 p)
  | .illegalInitRsvd p => .request (requestWord 0b001 p)
  | .illegalReleasePayload p => .request (requestWord 0b100 p)
  | .illegalOp101 p => .request (requestWord 0b101 p)
  | .illegalOp110 p => .request (requestWord 0b110 p)
  | .illegalOp111 p => .request (requestWord 0b111 p)
  | .clear => .request (requestWord 0b010 0x01)
  | .home => .request (requestWord 0b010 0x02)
  | .setpos0 col => .request (requestWord 0b010 (setpos0Byte col))
  | .setpos1 col => .request (requestWord 0b010 (setpos1Byte col))
  | .shiftl => .request (requestWord 0b010 0x18)
  | .shiftr => .request (requestWord 0b010 0x1C)
  | .lcdWake => .nibble false 0b0011
  | .lcdMode4 => .nibble false 0b0010
  | .lcdFuncset f => .byte false (0b00101#5 ++ BitVec.ofBool f ++ 0b00#2)
  | .lcdDispoff => .byte false 0b00001000
  | .lcdClear => .byte false 0b00000001
  | .lcdEntry => .byte false 0b00000110
  | .lcdDispon c b => .byte false (0b000011#6 ++ BitVec.ofBool c ++ BitVec.ofBool b)
  | .lcdCmd p => .byte false p
  | .lcdData p => .byte true p

/-- The name the decoder gives an instruction: itself, but for a `CMD` or `LCD_CMD` whose byte is a row of
its own, which gets that row's name (R76; log 8). -/
def Instr.canon : Instr → Instr
  | .cmd p => decodeCommand p
  | .lcdCmd p => decodeByte false p
  | .init f c b => .init f c b
  | .data p => .data p
  | .release => .release
  | .illegalOp000 p => .illegalOp000 p
  | .illegalInitRsvd p => .illegalInitRsvd p
  | .illegalReleasePayload p => .illegalReleasePayload p
  | .illegalOp101 p => .illegalOp101 p
  | .illegalOp110 p => .illegalOp110 p
  | .illegalOp111 p => .illegalOp111 p
  | .clear => .clear
  | .home => .home
  | .setpos0 col => .setpos0 col
  | .setpos1 col => .setpos1 col
  | .shiftl => .shiftl
  | .shiftr => .shiftr
  | .lcdWake => .lcdWake
  | .lcdMode4 => .lcdMode4
  | .lcdFuncset f => .lcdFuncset f
  | .lcdDispoff => .lcdDispoff
  | .lcdClear => .lcdClear
  | .lcdEntry => .lcdEntry
  | .lcdDispon c b => .lcdDispon c b
  | .lcdData p => .lcdData p

/-! ### Numbers, as the host's table writes them -/

/-- A number of `nbits` bits as one of the three formats: REQ11 (11 bits, 16 in whole bytes), LCD_NIBBLE
(RS and four bits: 5, 8 in whole bytes), LCD_BYTE (RS and eight bits: 9). Sixteen bits are a request word, since
the request port is the block's one input for words (R23; log 7). -/
def readNumber (nbits w : Nat) : Except DecodeError Encoded :=
  if nbits = 11 ∨ nbits = 16 then
    if w < 2 ^ 11 then .ok (.request (BitVec.ofNat 11 w)) else .error .tooWide
  else if nbits = 5 ∨ nbits = 8 then
    if w < 2 ^ 5 then .ok (.nibble (w.testBit 4) (BitVec.ofNat 4 w)) else .error .tooWide
  else if nbits = 9 then
    if w < 2 ^ 9 then .ok (.byte (w.testBit 8) (BitVec.ofNat 8 w)) else .error .tooWide
  else .error .noSuchFormat

/-- The instruction the decoder reads from a number of `nbits` bits, or the name of the rejection. -/
def decodeNumber (nbits w : Nat) : Except DecodeError Instr :=
  match readNumber nbits w with
  | .ok e => decode e
  | .error r => .error r

def decodeTableWord (nbits w : Nat) : Option Instr :=
  match decodeNumber nbits w with
  | .ok i => some i
  | .error _ => none

/-! ### The table's match and mask -/

/-- One row of format REQ11 of `spec/opcode_table.json`. -/
structure TableRow where
  mnemonic : String
  mtch : ReqWord
  mask : ReqWord
deriving DecidableEq, Repr

/-- The request rows in order of preference: the pseudo-requests before `CMD` (R76), `INIT` and `RELEASE` before
the reserved words that match "only words ... that do not match" them. -/
def requestRows : List TableRow :=
  [⟨"CLEAR", 0x201, 0x7FF⟩, ⟨"HOME", 0x202, 0x7FF⟩, ⟨"SETPOS0", 0x280, 0x7F0⟩, ⟨"SETPOS1", 0x2C0, 0x7F0⟩,
   ⟨"SHIFTL", 0x218, 0x7FF⟩, ⟨"SHIFTR", 0x21C, 0x7FF⟩] ++
  [⟨"INIT", 0x100, 0x7F8⟩, ⟨"CMD", 0x200, 0x700⟩, ⟨"DATA", 0x300, 0x700⟩, ⟨"RELEASE", 0x400, 0x7FF⟩] ++
  [⟨"ILLEGAL_OP000", 0x000, 0x700⟩, ⟨"ILLEGAL_INIT_RSVD", 0x100, 0x700⟩,
   ⟨"ILLEGAL_RELEASE_PAYLOAD", 0x400, 0x700⟩, ⟨"ILLEGAL_OP101", 0x500, 0x700⟩,
   ⟨"ILLEGAL_OP110", 0x600, 0x700⟩, ⟨"ILLEGAL_OP111", 0x700, 0x700⟩]

/-- The mnemonic of the first row a word matches. -/
def rowOf (w : ReqWord) : Option String :=
  (requestRows.find? (fun r => w &&& r.mask == r.mtch)).map TableRow.mnemonic

end Sys2Proof
end

