-- ==== Sys2Proof/Machine/Operands.lean ====
section
/-! DEFINITION. The operand forms: the halves of a byte (R51), the two configured bytes (R105), the word a request
is presented as (R63). -/
namespace Sys2Proof.Machine

/-- `b[7:4]`, the first nibble of a byte on the lines (R51). -/
def highNibble (b : Byte) : Nibble := b.extractLsb' 4 4

/-- `b[3:0]`, the second (R51). -/
def lowNibble (b : Byte) : Nibble := b.extractLsb' 0 4

/-- R105: the function-set byte, `FUNCSET_BASE | (f << 2)`. -/
def functionSetByte (C : CommandBytes) (f : Bit) : Byte :=
  C.FUNCSET_BASE ||| ((BitVec.ofBool f).setWidth 8 <<< 2)

/-- R105: the display-on byte, `DISPON_BASE | (c << 1) | b`. -/
def displayOnByte (C : CommandBytes) (c b : Bit) : Byte :=
  C.DISPON_BASE ||| ((BitVec.ofBool c).setWidth 8 <<< 1) ||| (BitVec.ofBool b).setWidth 8

/-- The word INIT is presented as (R63, R67). -/
def initWord (f c b : Bit) : ReqWord := requestWord 0b001 (initPayload f c b)

/-- The word CMD is presented as (R63, R65). -/
def cmdWord (p : Byte) : ReqWord := requestWord 0b010 p

/-- The word DATA is presented as (R63, R66). -/
def dataWord (p : Byte) : ReqWord := requestWord 0b011 p

/-- The word RELEASE is presented as (R63, R68). -/
def releaseWord : ReqWord := requestWord 0b100 0x00

end Sys2Proof.Machine
end

