-- ==== Sys2Proof/Machine/State.lean ====
section
/-! DEFINITION. The state of the block (R21), of the model around it (R15, R17), of the block's inputs (R23 to
R29) and its parameters (R7, R9); the reset values (R46). Field names are the spec's. -/
namespace Sys2Proof.Machine

/-- `DSTATE`, the document's DisplayState (R32). -/
inductive DisplayState where
  | uninitialized
  | initializing
  | ready
  | faulted
deriving DecidableEq, Repr, Inhabited

/-- `STATUS` (R134): the six statuses some rule writes. Codes `0b101` and `0b110` are never written and have no
name (I10; log 9). -/
inductive Status where
  | ok
  | notReady
  | pinUnavailable
  | timingPrereq
  | illegalRequest
  | none
deriving DecidableEq, Repr, Inhabited

/-- `ISTEP` (R43): the fourteen steps some rule writes. Codes 14 and 15 are never written and have no name
(I10; log 9). -/
inductive InitStep where
  | idle
  | bind
  | powerup
  | wake1
  | wake2
  | wake3
  | mode4
  | funcset
  | dispoff
  | clear
  | entry
  | dispon
  | done
  | fault
deriving DecidableEq, Repr, Inhabited

/-- The micro-operations of R13, each performed by one rule of R80 to R89. -/
inductive MicroOp where
  /-- R80 -/
  | drive (rs : Bit) (d : Nibble)
  /-- R81 -/
  | enHigh
  /-- R82 -/
  | enLow
  /-- R83 -/
  | wait (tmin : Nat)
  /-- R84 -/
  | bind
  /-- R85 -/
  | release
  /-- R86 -/
  | setState (d : DisplayState)
  /-- R87 -/
  | step (i : InitStep)
  /-- R88 -/
  | latch (f c b : Bit)
  /-- R89 -/
  | complete (st : Status)
deriving DecidableEq, Repr

/-- One record of the pin trace, `(t, OE, RS, E, D)` (R17, R79). -/
structure PinRecord where
  t  : Nat
  OE : Bit
  RS : Bit
  E  : Bit
  D  : Nibble
deriving DecidableEq, Repr

/-- One response event, `(t, status)` (R17, R27). -/
structure Response where
  t : Nat
  status : Status
deriving DecidableEq, Repr

/-- What was observed from one end of reset to the next assertion of it (R15, R17; log 5). -/
structure Observation where
  trace : List PinRecord
  responses : List Response
deriving DecidableEq, Repr

/-- The levels of the block's inputs during one step (R23, R25, R26, R29). -/
structure Ports where
  RESET     : Bit
  REQ_VALID : Bit
  REQ       : ReqWord
  BIND_OK   : Bit
  TIMING_OK : Bit
deriving DecidableEq, Repr

/-- Why the machine stops. -/
inductive Fault where
  /-- Raised by the sequencer's step alone, where BUSY = 1 and PROG holds no micro-operation at `upc`: R42 says
  that `upc` stays in PROG and that `Complete` is its last, so no run gets there. SAFE: the model stops in a state
  the spec gives no step. -/
  | noMicroOp
deriving DecidableEq, Repr

/-- Why an instruction has no meaning. -/
inductive Refusal where
  /-- Raised by `exec` for an instruction without a meaning, by its mnemonic; none is left. SAFE. -/
  | notModelled (mnemonic : String)
deriving DecidableEq, Repr

structure State where
  /-- The parameter set of the run (R7, R9); no step writes it (log 2). -/
  cfg       : Params
  /-- R32 -/
  DSTATE    : DisplayState
  /-- R35: 1 = the block drives the six lines. -/
  OE        : Bit
  /-- R31: 1 = the lines were released low since reset. -/
  REL       : Bit
  /-- R36 -/
  RS        : Bit
  /-- R36 -/
  E         : Bit
  /-- R36 -/
  D         : Nibble
  /-- R37 -/
  CFG_F     : Bit
  /-- R37 -/
  CFG_C     : Bit
  /-- R37 -/
  CFG_B     : Bit
  /-- R38 -/
  STATUS    : Status
  /-- R39 -/
  BUSY      : Bit
  /-- R40 -/
  CUR       : ReqWord
  /-- R41 -/
  PROG      : List MicroOp
  /-- R42 -/
  upc       : Nat
  /-- R43 -/
  ISTEP     : InitStep
  /-- R15: the model's time, in ns. -/
  now       : Nat
  /-- R17, R79: the pin trace since the last reset, oldest record first. -/
  trace     : List PinRecord
  /-- R17, R27: the responses since the last reset, oldest first. -/
  responses : List Response
  /-- The model's own: the observations before the last reset, oldest first (log 5). -/
  earlier   : List Observation
  /-- The model's own: how many waits have been drawn, the argument of `Config.waitSlack` (R16; log 1). -/
  draws     : Nat
  /-- The inputs as they stand during the next step (R23 to R26, R29). -/
  ports     : Ports
  /-- The model's own: the inputs as the host will set them for the steps after that (log 4). -/
  script    : List Ports
deriving DecidableEq, Repr

/-- The inputs of a block out of reset to which the host presents nothing (log 6). -/
def Ports.quiet : Ports where
  RESET     := false
  REQ_VALID := false
  REQ       := 0
  BIND_OK   := false
  TIMING_OK := false

/-- R46: the machine right after reset, with the default parameters of R7 and R9 (log 2). The model's own fields are
DESIGN CHOICES: `draws` 0 (log 1), `earlier` empty (log 5), the ports quiet (log 6), and `script` empty (log 18): the
host presents nothing in the steps after reset, where the spec leaves it free (R6). -/
def State.reset : State where
  cfg       := Params.default
  DSTATE    := .uninitialized
  OE        := false
  REL       := false
  RS        := false
  E         := false
  D         := 0b0000
  CFG_F     := false
  CFG_C     := false
  CFG_B     := false
  STATUS    := .none
  BUSY      := false
  CUR       := 0
  PROG      := []
  upc       := 0
  ISTEP     := .idle
  now       := 0
  trace     := []
  responses := []
  earlier   := []
  draws     := 0
  ports     := Ports.quiet
  script    := []

end Sys2Proof.Machine
end

