-- ==== Sys2Proof/Machine/Flags.lean ====
section
/-! DEFINITION. The codes of the status and state outputs (R32, R43, R134), the ready flag (R24), the outputs on the
lines (R30, R31) and the one classification of an operand (R74). -/
namespace Sys2Proof.Machine

/-- R32: `STATE[1:0]`. -/
def DisplayState.code : DisplayState → BitVec 2
  | .uninitialized => 0b00
  | .initializing  => 0b01
  | .ready         => 0b10
  | .faulted       => 0b11

/-- R134: `RESP_STATUS[2:0]` and `STATUS`. -/
def Status.code : Status → BitVec 3
  | .ok             => 0b000
  | .notReady       => 0b001
  | .pinUnavailable => 0b010
  | .timingPrereq   => 0b011
  | .illegalRequest => 0b100
  | .none           => 0b111

/-- R43: the 4-bit code of `ISTEP`. -/
def InitStep.code : InitStep → BitVec 4
  | .idle    => 0
  | .bind    => 1
  | .powerup => 2
  | .wake1   => 3
  | .wake2   => 4
  | .wake3   => 5
  | .mode4   => 6
  | .funcset => 7
  | .dispoff => 8
  | .clear   => 9
  | .entry   => 10
  | .dispon  => 11
  | .done    => 12
  | .fault   => 13

/-- R28: the output `STATE[1:0]`. -/
def State.stateOut (s : State) : BitVec 2 := s.DSTATE.code

/-- R28: the output `BUSY`. -/
def State.busyOut (s : State) : Bit := s.BUSY

/-- R24: `REQ_READY` is 1 exactly when BUSY = 0 and reset is not asserted. -/
def State.reqReady (s : State) : Bit := !s.BUSY && !s.ports.RESET

/-- R23: a request is taken at a moment when REQ_VALID = 1 and REQ_READY = 1. -/
def State.takesRequest (s : State) : Bit := s.ports.REQ_VALID && s.reqReady

/-- R30: the output `LCD_OE`. -/
def State.lcdOe (s : State) : Bit := s.OE

/-- The output register of a line (R36). -/
def State.lineRegister (s : State) : Line → Bit
  | .registerSelect => s.RS
  | .enable         => s.E
  | .data i         => s.D.getLsbD i.val

/-- R31: the level the display sees on a line: driven from its register while OE = 1, low after a release, and
otherwise not given a value (`observation` names the moment it is looked at; log 3). -/
def State.lineLevel (observation : Nat) (s : State) (l : Line) : Level :=
  if s.OE then Level.ofBit (s.lineRegister l)
  else if s.REL then .low
  else Config.unboundLevel observation l

/-- R74: a command byte is long-executing when it is in `LONG_EXEC_CMDS`. -/
def isLongExec (C : CommandBytes) (b : Byte) : Bool := C.LONG_EXEC_CMDS.contains b

/-- R74, R96, R97: the extra floor on the wait after the low nibble. Only a command byte (RS = 0) can be
long-executing. -/
def byteFloor (P : Params) (rs : Bit) (b : Byte) : Nat :=
  if !rs && isLongExec P.cmds b then P.timing.T_CLEAR_MIN else 0

end Sys2Proof.Machine
end

