-- ==== Sys2Proof/Machine/Ops.lean ====
section
/-! DEFINITION. The named operations: the micro-operations (R79 to R89), the performance of one and of a list of
them (R78), accepting a request (R77), entering Faulted (R102, R137), reset (R149), and the inputs of the next step. -/
namespace Sys2Proof.Machine

/-! ### Micro-operations -/

/-- R79: append the record `(now, OE, RS, E, D)`. -/
def record (s : State) : State :=
  { s with trace := s.trace ++ [{ t := s.now, OE := s.OE, RS := s.RS, E := s.E, D := s.D }] }

/-- R80. -/
def opDrive (rs : Bit) (d : Nibble) (s : State) : State := record { s with RS := rs, D := d }

/-- R81. -/
def opEnHigh (s : State) : State := record { s with E := true }

/-- R82. -/
def opEnLow (s : State) : State := record { s with E := false }

/-- R83: the wait lasts its floor and `slack` more (R16). -/
def opWait (tmin slack : Nat) (s : State) : State :=
  { s with now := s.now + (tmin + slack), draws := s.draws + 1 }

/-- R84. -/
def opBind (s : State) : State := record { s with OE := true, RS := false, E := false, D := 0b0000 }

/-- R85: the lines go low while still driven, one record; then they are let go, a second. -/
def opRelease (s : State) : State :=
  record { record { s with RS := false, E := false, D := 0b0000, OE := true } with OE := false, REL := true }

/-- R86. -/
def opSetState (d : DisplayState) (s : State) : State := { s with DSTATE := d }

/-- R87. -/
def opStep (i : InitStep) (s : State) : State := { s with ISTEP := i }

/-- R88. -/
def opLatch (f c b : Bit) (s : State) : State := { s with CFG_F := f, CFG_C := c, CFG_B := b }

/-- R89: the status is written, the block is idle, the response is emitted. -/
def opComplete (st : Status) (s : State) : State :=
  { s with STATUS := st, BUSY := false, responses := s.responses ++ [{ t := s.now, status := st }] }

/-- What a micro-operation does to the state, `upc` apart; `slack` is the draw of a wait. -/
def microOp (slack : Nat) (op : MicroOp) (s : State) : State :=
  match op with
  | .drive rs d   => opDrive rs d s
  | .enHigh       => opEnHigh s
  | .enLow        => opEnLow s
  | .wait tmin    => opWait tmin slack s
  | .bind         => opBind s
  | .release      => opRelease s
  | .setState d   => opSetState d s
  | .step i       => opStep i s
  | .latch f c b  => opLatch f c b s
  | .complete st  => opComplete st s

/-- A micro-operation with the draw the time source makes now (R16; log 1). -/
def microOpDrawn (op : MicroOp) (s : State) : State := microOp (Config.waitSlack s.draws) op s

/-- Micro-operations one after the other, `upc` apart. -/
def perform : List MicroOp → State → State
  | [], s => s
  | op :: ops, s => perform ops (microOpDrawn op s)

/-! ### The sequencer -/

/-- Advance the micro-program counter (R42, R78). -/
def nextUpc (s : State) : State := { s with upc := s.upc + 1 }

/-- R78: perform `PROG[upc]`, then `upc <- upc + 1`. -/
def sequencerStep (s : State) : Host.Outcome State Fault Refusal :=
  match s.PROG[s.upc]? with
  | some op => .next (nextUpc (microOpDrawn op s))
  | none => .fault .noMicroOp

/-! ### Accepting a request -/

/-- R77: what acceptance writes; it changes no line and takes no time. -/
def accepted (w : ReqWord) (prog : List MicroOp) (s : State) : State :=
  { s with CUR := w, PROG := prog, upc := 0, BUSY := true }

/-- R24, R77: a request is accepted when REQ_READY = 1; presented at another moment it is held, and nothing
happens. -/
def accept (w : ReqWord) (prog : List MicroOp) (s : State) : State :=
  if s.reqReady then accepted w prog s else s

/-! ### Failures: the entry into Faulted, and completion without effect -/

/-- R102, R137: how a failed INIT ends, its cause `st` being PIN_UNAVAILABLE or TIMING_PREREQ. Control goes
nowhere: the block waits for the next request. Faulted is left by INIT, RELEASE or reset (R139). -/
def faultEntry (st : Status) : List MicroOp := [.step .fault, .setState .faulted, .complete st]

/-- A request that completes at once, with its status and no other effect (R69, R95). -/
def turnedAway (st : Status) : List MicroOp := [.complete st]

/-! ### Reset -/

/-- The observation closes when reset restarts the time (R15, R149; log 5). An empty one leaves no entry. -/
def closeObservation (s : State) : List Observation :=
  if s.trace.isEmpty && s.responses.isEmpty then s.earlier
  else s.earlier ++ [{ trace := s.trace, responses := s.responses }]

/-- R149: every element of the block takes its reset value (R46), the request in flight gets no response, and
`now` restarts at 0. -/
def resetBlock (s : State) : State :=
  { State.reset with
    cfg     := s.cfg
    earlier := closeObservation s
    draws   := s.draws
    ports   := s.ports
    script  := s.script }

/-! ### Inputs -/

/-- The inputs of the following step: what the host's script says; once it is used up the inputs hold, and the
host withdraws a request that was taken (R23; log 4). -/
def nextInputs (taken : Bool) (s : State) : State :=
  match s.script with
  | p :: ps => { s with ports := p, script := ps }
  | [] => if taken then { s with ports := { s.ports with REQ_VALID := false } } else s

/-- `f` after a next state; a fault or a refusal stays. -/
def mapNext (f : State → State) : Host.Outcome State Fault Refusal → Host.Outcome State Fault Refusal
  | .next s => .next (f s)
  | .fault r => .fault r
  | .refused r => .refused r

/-- A request word on the port of an idle block (R23, R24); nothing but what its acceptance needs. -/
def presentWord (w : ReqWord) (s : State) : State :=
  { s with BUSY := false, ports := { s.ports with RESET := false, REQ_VALID := true, REQ := w } }

/-- A program standing in the sequencer, its first micro-operation next (R78). -/
def presentProgram (prog : List MicroOp) (s : State) : State :=
  { s with BUSY := true, PROG := prog, upc := 0, ports := { s.ports with RESET := false } }

end Sys2Proof.Machine
end

