-- ==== Sys2Proof/Machine/Transport.lean ====
section
/-! DEFINITION. The nibble transport (R90), the byte transfer (R93), and the meanings of the display-side rows of
the table: each is the transfer the sequencer performs inside INIT, CMD or DATA (R71, R106, R109 to R115). -/
namespace Sys2Proof.Machine

/-- R90: `NT(v, rs, tpost)`. -/
def nibbleTransfer (T : Timing) (v : Nibble) (rs : Bit) (tpost : Nat) : List MicroOp :=
  [.drive rs v, .wait T.T_SETUP_MIN, .enHigh, .wait T.T_EN_HIGH_MIN, .enLow, .wait (max T.T_SETTLE_MIN tpost)]

/-- R93: `BYTE(b, rs, tpost)`. -/
def byteTransfer (T : Timing) (b : Byte) (rs : Bit) (tpost : Nat) : List MicroOp :=
  nibbleTransfer T (highNibble b) rs 0 ++ nibbleTransfer T (lowNibble b) rs tpost

/-- A transfer's effect on the lines, the time and the trace (R90: "a pure timed side effect"). While RESET = 1 no
micro-operation is performed (R149). DESIGN CHOICE (log 17) where OE = 0: R90 says that no program has a transfer
there, and this performs the same micro-operations, whose records say OE = 0. -/
def transfer (ops : List MicroOp) (s : State) : State :=
  if s.ports.RESET then s else perform ops s

/-- R109: the gap after a wake nibble: `T_WAKE1_MIN` after the first, `T_WAKE2_MIN` after the second and the third
(which one is in progress, ISTEP says: R43). -/
def wakeGap (T : Timing) (i : InitStep) : Nat :=
  if i = .wake1 then T.T_WAKE1_MIN else T.T_WAKE2_MIN

/-- LCD_WAKE (R109). -/
def progLcdWake (s : State) : List MicroOp :=
  nibbleTransfer s.cfg.timing WAKE_NIBBLE false (wakeGap s.cfg.timing s.ISTEP)

def execLcdWake (s : State) : Host.Outcome State Fault Refusal := .next (transfer (progLcdWake s) s)

/-- LCD_MODE4 (R110). -/
def progLcdMode4 (s : State) : List MicroOp := nibbleTransfer s.cfg.timing MODE4_NIBBLE false 0

def execLcdMode4 (s : State) : Host.Outcome State Fault Refusal := .next (transfer (progLcdMode4 s) s)

/-- LCD_FUNCSET (R111). -/
def progLcdFuncset (f : Bit) (s : State) : List MicroOp :=
  byteTransfer s.cfg.timing (functionSetByte s.cfg.cmds f) false 0

def execLcdFuncset (f : Bit) (s : State) : Host.Outcome State Fault Refusal :=
  .next (transfer (progLcdFuncset f s) s)

/-- LCD_DISPOFF (R112). -/
def progLcdDispoff (s : State) : List MicroOp := byteTransfer s.cfg.timing s.cfg.cmds.DISPOFF false 0

def execLcdDispoff (s : State) : Host.Outcome State Fault Refusal := .next (transfer (progLcdDispoff s) s)

/-- LCD_CLEAR (R113). -/
def progLcdClear (s : State) : List MicroOp :=
  byteTransfer s.cfg.timing s.cfg.cmds.CLEARDISP false s.cfg.timing.T_CLEAR_MIN

def execLcdClear (s : State) : Host.Outcome State Fault Refusal := .next (transfer (progLcdClear s) s)

/-- LCD_ENTRY (R114). -/
def progLcdEntry (s : State) : List MicroOp := byteTransfer s.cfg.timing s.cfg.cmds.ENTRYMODE false 0

def execLcdEntry (s : State) : Host.Outcome State Fault Refusal := .next (transfer (progLcdEntry s) s)

/-- LCD_DISPON (R115). -/
def progLcdDispon (c b : Bit) (s : State) : List MicroOp :=
  byteTransfer s.cfg.timing (displayOnByte s.cfg.cmds c b) false 0

def execLcdDispon (c b : Bit) (s : State) : Host.Outcome State Fault Refusal :=
  .next (transfer (progLcdDispon c b s) s)

/-- LCD_CMD: the byte as CMD sends it (R96). -/
def progLcdCmd (p : Byte) (s : State) : List MicroOp :=
  byteTransfer s.cfg.timing p false (byteFloor s.cfg false p)

def execLcdCmd (p : Byte) (s : State) : Host.Outcome State Fault Refusal := .next (transfer (progLcdCmd p s) s)

/-- LCD_DATA: the byte as DATA sends it (R97). -/
def progLcdData (p : Byte) (s : State) : List MicroOp :=
  byteTransfer s.cfg.timing p true (byteFloor s.cfg true p)

def execLcdData (p : Byte) (s : State) : Host.Outcome State Fault Refusal := .next (transfer (progLcdData p s) s)

/-- The program of a display-side row; a request has none of these. -/
def displayProgram (i : Instr) (s : State) : List MicroOp :=
  match i with
  | .lcdWake => progLcdWake s
  | .lcdMode4 => progLcdMode4 s
  | .lcdFuncset f => progLcdFuncset f s
  | .lcdDispoff => progLcdDispoff s
  | .lcdClear => progLcdClear s
  | .lcdEntry => progLcdEntry s
  | .lcdDispon c b => progLcdDispon c b s
  | .lcdCmd p => progLcdCmd p s
  | .lcdData p => progLcdData p s
  | .init _ _ _ | .cmd _ | .data _ | .release => []
  | .illegalOp000 _ | .illegalInitRsvd _ | .illegalReleasePayload _ => []
  | .illegalOp101 _ | .illegalOp110 _ | .illegalOp111 _ => []
  | .clear | .home | .setpos0 _ | .setpos1 _ | .shiftl | .shiftr => []

end Sys2Proof.Machine
end

