-- ==== Sys2Proof/Machine/Init.lean ====
section
/-! DEFINITION. The initialization state machine: INIT (R100 to R116). -/
namespace Sys2Proof.Machine

/-- Steps S_POWERUP to S_MODE4 (R108, R109, R110): the lone nibbles. -/
def initWakeUp (T : Timing) : List MicroOp :=
  [.step .powerup, .wait T.T_POWERUP_MIN]
    ++ ([.step .wake1] ++ nibbleTransfer T WAKE_NIBBLE false T.T_WAKE1_MIN)
    ++ ([.step .wake2] ++ nibbleTransfer T WAKE_NIBBLE false T.T_WAKE2_MIN)
    ++ ([.step .wake3] ++ nibbleTransfer T WAKE_NIBBLE false T.T_WAKE2_MIN)
    ++ ([.step .mode4] ++ nibbleTransfer T MODE4_NIBBLE false 0)

/-- Steps S_FUNCSET to S_DISPON (R111 to R115): the bytes. -/
def initConfigure (P : Params) (f c b : Bit) : List MicroOp :=
  ([.step .funcset] ++ byteTransfer P.timing (functionSetByte P.cmds f) false 0)
    ++ ([.step .dispoff] ++ byteTransfer P.timing P.cmds.DISPOFF false 0)
    ++ ([.step .clear] ++ byteTransfer P.timing P.cmds.CLEARDISP false P.timing.T_CLEAR_MIN)
    ++ ([.step .entry] ++ byteTransfer P.timing P.cmds.ENTRYMODE false 0)
    ++ ([.step .dispon] ++ byteTransfer P.timing (displayOnByte P.cmds c b) false 0)

/-- `INIT_SEQ` (R106). -/
def initSequence (P : Params) (f c b : Bit) : List MicroOp :=
  initWakeUp P.timing ++ initConfigure P f c b

/-- How INIT begins (R100, R101): the old binding, if there is one, is released. -/
def initBegin (oe : Bit) : List MicroOp :=
  [.step .bind, .setState .initializing] ++ (if oe then [.release] else [])

/-- `PROG_INIT` (R100, R102, R103, R116). -/
def progInit (f c b : Bit) (s : State) : List MicroOp :=
  if !s.ports.BIND_OK then initBegin s.OE ++ faultEntry .pinUnavailable
  else if !s.ports.TIMING_OK then initBegin s.OE ++ faultEntry .timingPrereq
  else
    initBegin s.OE ++ [.bind, .latch f c b] ++ initSequence s.cfg f c b
      ++ [.step .done, .setState .ready, .complete .ok]

/-- INIT (R77, R100). -/
def execInit (f c b : Bit) (s : State) : Host.Outcome State Fault Refusal :=
  .next (accept (initWord f c b) (progInit f c b s) s)

end Sys2Proof.Machine
end

