-- ==== Sys2Proof/Machine/Release.lean ====
section
/-! DEFINITION. Teardown: RELEASE (R120). -/
namespace Sys2Proof.Machine

/-- `PROG_RELEASE` (R120). -/
def progRelease (s : State) : List MicroOp :=
  (if s.OE then [.release] else []) ++ [.step .idle, .setState .uninitialized, .complete .ok]

/-- RELEASE (R77, R120). -/
def execRelease (s : State) : Host.Outcome State Fault Refusal :=
  .next (accept releaseWord (progRelease s) s)

end Sys2Proof.Machine
end

