-- ==== Sys2Proof/Machine/Reserved.lean ====
section
/-! DEFINITION. The reserved request words (R69): each is accepted like any other and completes at once with
ILLEGAL_REQUEST. -/
namespace Sys2Proof.Machine

/-- The program of an illegal word (R70). -/
def progIllegal : List MicroOp := turnedAway .illegalRequest

/-- An illegal word at the request port (R69, R77). -/
def acceptIllegal (w : ReqWord) (s : State) : Host.Outcome State Fault Refusal :=
  .next (accept w progIllegal s)

def execIllegalOp000 (p : Byte) (s : State) : Host.Outcome State Fault Refusal :=
  acceptIllegal (requestWord 0b000 p) s

def execIllegalInitRsvd (p : Byte) (s : State) : Host.Outcome State Fault Refusal :=
  acceptIllegal (requestWord 0b001 p) s

def execIllegalReleasePayload (p : Byte) (s : State) : Host.Outcome State Fault Refusal :=
  acceptIllegal (requestWord 0b100 p) s

def execIllegalOp101 (p : Byte) (s : State) : Host.Outcome State Fault Refusal :=
  acceptIllegal (requestWord 0b101 p) s

def execIllegalOp110 (p : Byte) (s : State) : Host.Outcome State Fault Refusal :=
  acceptIllegal (requestWord 0b110 p) s

def execIllegalOp111 (p : Byte) (s : State) : Host.Outcome State Fault Refusal :=
  acceptIllegal (requestWord 0b111 p) s

end Sys2Proof.Machine
end

