-- ==== Sys2Proof/Machine/Sequencer.lean ====
section
/-! DEFINITION. The byte and command sequencer: CMD (R96), DATA (R97), and the pseudo-requests that are words of
CMD (R76). -/
namespace Sys2Proof.Machine

/-- `PROG_CMD` (R95, R96). -/
def progCmd (p : Byte) (s : State) : List MicroOp :=
  if s.DSTATE = .ready then
    byteTransfer s.cfg.timing p false (byteFloor s.cfg false p) ++ [.complete .ok]
  else turnedAway .notReady

/-- `PROG_DATA` (R95, R97). -/
def progData (p : Byte) (s : State) : List MicroOp :=
  if s.DSTATE = .ready then
    byteTransfer s.cfg.timing p true 0 ++ [.complete .ok]
  else turnedAway .notReady

/-- CMD (R77, R96). -/
def execCmd (p : Byte) (s : State) : Host.Outcome State Fault Refusal :=
  .next (accept (cmdWord p) (progCmd p s) s)

/-- DATA (R77, R97). -/
def execData (p : Byte) (s : State) : Host.Outcome State Fault Refusal :=
  .next (accept (dataWord p) (progData p s) s)

/-- CLEAR (R76). -/
def execClear (s : State) : Host.Outcome State Fault Refusal := execCmd 0x01 s

/-- HOME (R76). -/
def execHome (s : State) : Host.Outcome State Fault Refusal := execCmd 0x02 s

/-- SETPOS 0, c (R76). -/
def execSetpos0 (col : BitVec 4) (s : State) : Host.Outcome State Fault Refusal := execCmd (setpos0Byte col) s

/-- SETPOS 1, c (R76). -/
def execSetpos1 (col : BitVec 4) (s : State) : Host.Outcome State Fault Refusal := execCmd (setpos1Byte col) s

/-- SHIFTL (R76). -/
def execShiftl (s : State) : Host.Outcome State Fault Refusal := execCmd 0x18 s

/-- SHIFTR (R76). -/
def execShiftr (s : State) : Host.Outcome State Fault Refusal := execCmd 0x1C s

end Sys2Proof.Machine
end

