-- ==== Sys2Proof/Machine/Dispatch.lean ====
section
/-! DEFINITION. One arm for each constructor of `Instr`. -/
namespace Sys2Proof.Machine

def exec (i : Instr) (s : State) : Host.Outcome State Fault Refusal :=
  match i with
  | .init f c b => Sys2Proof.Machine.execInit f c b s
  | .cmd p => Sys2Proof.Machine.execCmd p s
  | .data p => Sys2Proof.Machine.execData p s
  | .release => Sys2Proof.Machine.execRelease s
  | .illegalOp000 p => Sys2Proof.Machine.execIllegalOp000 p s
  | .illegalInitRsvd p => Sys2Proof.Machine.execIllegalInitRsvd p s
  | .illegalReleasePayload p => Sys2Proof.Machine.execIllegalReleasePayload p s
  | .illegalOp101 p => Sys2Proof.Machine.execIllegalOp101 p s
  | .illegalOp110 p => Sys2Proof.Machine.execIllegalOp110 p s
  | .illegalOp111 p => Sys2Proof.Machine.execIllegalOp111 p s
  | .clear => Sys2Proof.Machine.execClear s
  | .home => Sys2Proof.Machine.execHome s
  | .setpos0 col => Sys2Proof.Machine.execSetpos0 col s
  | .setpos1 col => Sys2Proof.Machine.execSetpos1 col s
  | .shiftl => Sys2Proof.Machine.execShiftl s
  | .shiftr => Sys2Proof.Machine.execShiftr s
  | .lcdWake => Sys2Proof.Machine.execLcdWake s
  | .lcdMode4 => Sys2Proof.Machine.execLcdMode4 s
  | .lcdFuncset f => Sys2Proof.Machine.execLcdFuncset f s
  | .lcdDispoff => Sys2Proof.Machine.execLcdDispoff s
  | .lcdClear => Sys2Proof.Machine.execLcdClear s
  | .lcdEntry => Sys2Proof.Machine.execLcdEntry s
  | .lcdDispon c b => Sys2Proof.Machine.execLcdDispon c b s
  | .lcdCmd p => Sys2Proof.Machine.execLcdCmd p s
  | .lcdData p => Sys2Proof.Machine.execLcdData p s

end Sys2Proof.Machine
end

