-- ==== Sys2Proof/Machine/Step.lean ====
section
/-! DEFINITION. One step of the machine, and where its next instruction is taken from.
The machine does not fetch at a program counter (R61): an instruction is the request word the host presents at the
port (R23), and `upc` counts the micro-operations of the request in flight (R42). -/
namespace Sys2Proof.Machine

/-- In order: reset overrides everything (R136, R149); a request in flight gets its next micro-operation (R78), a
request presented meanwhile being held (R24); a request presented to an idle block is decoded and accepted (R70,
R77); with none the block waits (R46). -/
def step (s : State) : Host.Outcome State Fault Refusal :=
  if s.ports.RESET then .next (nextInputs false (resetBlock s))
  else if s.BUSY then mapNext (nextInputs false) (sequencerStep s)
  else if s.ports.REQ_VALID then mapNext (nextInputs true) (exec (decodeRequest s.ports.REQ) s)
  else .next (nextInputs false s)

/-- The state in which the next step begins the instruction that a number of `nbits` bits is: a request word
stands at the port of an idle block (log 12); a display transfer, which has no port (log 7), stands in the sequencer
with the completion of a request after it, in whatever state of the binding `s` is (log 17). -/
def State.withFetchWord (s : State) (nbits w : Nat) : State :=
  match decodeNumber nbits w with
  | .ok i =>
    if i.isRequest then presentWord (BitVec.ofNat 11 w) s
    else presentProgram (displayProgram i s ++ [.complete .ok]) s
  | .error _ => presentWord (BitVec.ofNat 11 w) s

end Sys2Proof.Machine
end

