-- ==== Sys2Proof/Machine/Assembler.lean ====
section
/-! DEFINITION. The assembler's notation for request streams (R75) and its pseudo-requests (R76), as a reader of
lines of characters and an assembler of what was read. It is notation only (D33): no step of the machine reads it. -/
namespace Sys2Proof.Machine

/-- One line of R75 or R76. -/
inductive AsmLine where
  | init (f c b : Bit)
  | cmd (p : Byte)
  | data (p : Byte)
  | release
  | word (w : ReqWord)
  | clear
  | home
  | setpos (line col : Nat)
  | shiftl
  | shiftr
  | puts (text : List Char)
deriving DecidableEq, Repr

/-- R75: one printable ASCII character. -/
def printable (ch : Char) : Bool := 0x20 ≤ ch.toNat && ch.toNat ≤ 0x7E

def charByte (ch : Char) : Byte := BitVec.ofNat 8 ch.toNat

/-- The instructions of a line, or `none` where the assembler refuses it (R76: SETPOS outside the display). A raw
`.word` is whatever the word is. -/
def assembleLine : AsmLine → Option (List Instr)
  | .init f c b => some [.init f c b]
  | .cmd p => some [.cmd p]
  | .data p => some [.data p]
  | .release => some [.release]
  | .word w => some [decodeRequest w]
  | .clear => some [.clear]
  | .home => some [.home]
  | .setpos line col =>
    if col < 16 then
      if line = 0 then some [.setpos0 (BitVec.ofNat 4 col)]
      else if line = 1 then some [.setpos1 (BitVec.ofNat 4 col)]
      else none
    else none
  | .shiftl => some [.shiftl]
  | .shiftr => some [.shiftr]
  | .puts text => if text.all printable then some (text.map fun ch => .data (charByte ch)) else none

/-- The request words of a line. -/
def assembleWords (l : AsmLine) : Option (List ReqWord) :=
  (assembleLine l).map fun is => is.filterMap fun i =>
    match encode i with
    | .request w => some w
    | .nibble _ _ => none
    | .byte _ _ => none

/-! ### Reading a line -/

/-- `;` starts a comment (R75), but not as the character of a `'ch'`, which may be a quote itself, nor between double
quotes (log 16); the flag says whether the line has come between two of those. -/
def dropComment : Bit → List Char → List Char
  | _, [] => []
  | true, ch :: rest => ch :: dropComment (ch != '"') rest
  | false, '\'' :: ch :: '\'' :: rest => '\'' :: ch :: '\'' :: dropComment false rest
  | false, ch :: rest => if ch = ';' then [] else ch :: dropComment (ch == '"') rest

def dropBlanks : List Char → List Char
  | [] => []
  | ch :: rest => if ch = ' ' ∨ ch = '\t' then dropBlanks rest else ch :: rest

def trimBlanks (cs : List Char) : List Char := (dropBlanks (dropBlanks cs).reverse).reverse

def digitValue (ch : Char) : Option Nat :=
  if '0' ≤ ch ∧ ch ≤ '9' then some (ch.toNat - '0'.toNat)
  else if 'a' ≤ ch ∧ ch ≤ 'f' then some (ch.toNat - 'a'.toNat + 10)
  else if 'A' ≤ ch ∧ ch ≤ 'F' then some (ch.toNat - 'A'.toNat + 10)
  else none

/-- Digits of a base, most significant first, after the value `acc`. -/
def readDigits (base : Nat) (acc : Nat) : List Char → Option Nat
  | [] => some acc
  | ch :: rest =>
    match digitValue ch with
    | some d => if d < base then readDigits base (acc * base + d) rest else none
    | none => none

/-- R75: a number is decimal, hexadecimal (`0x`) or binary (`0b`). -/
def readNat : List Char → Option Nat
  | [] => none
  | ['0', 'x'] => none
  | ['0', 'b'] => none
  | '0' :: 'x' :: rest => readDigits 16 0 rest
  | '0' :: 'b' :: rest => readDigits 2 0 rest
  | cs => readDigits 10 0 cs

/-- A number below `bound`; the assembler refuses anything else (R75). -/
def readBelow (bound : Nat) (cs : List Char) : Option Nat :=
  (readNat (trimBlanks cs)).bind fun n => if n < bound then some n else none

def readByte (cs : List Char) : Option Byte := (readBelow 256 cs).map (BitVec.ofNat 8)

/-- A configuration bit: "each 0 or 1" (R75). DESIGN CHOICE (log 16): it is written in any form of a number, `0x1` or
`01` too. -/
def readBit (cs : List Char) : Option Bit := (readBelow 2 cs).map (· == 1)

/-- The operands, separated by commas; an empty rest has none. -/
def splitOperands (cs : List Char) : List (List Char) :=
  if (trimBlanks cs).isEmpty then [] else cs.splitOn ','

/-- R75: the operands of INIT; those left out are 0. DESIGN CHOICE (log 16): only the last ones can be left out, none,
one, two or all three of them; an operand left empty before or after a comma (`INIT ,1`) is refused. -/
def readInit (cs : List Char) : Option AsmLine :=
  match splitOperands cs with
  | [] => some (.init false false false)
  | [f] => (readBit f).map fun f => .init f false false
  | [f, c] => (readBit f).bind fun f => (readBit c).map fun c => .init f c false
  | [f, c, b] =>
    (readBit f).bind fun f => (readBit c).bind fun c => (readBit b).map fun b => .init f c b
  | _ => none

/-- R75: the operand of DATA, a number or one printable character in quotes. -/
def readData (cs : List Char) : Option AsmLine :=
  match trimBlanks cs with
  | ['\'', ch, '\''] => if printable ch then some (.data (charByte ch)) else none
  | t => (readByte t).map .data

/-- R76: the operands of SETPOS. -/
def readSetpos (cs : List Char) : Option AsmLine :=
  match splitOperands cs with
  | [l, c] => (readNat (trimBlanks l)).bind fun l => (readNat (trimBlanks c)).map fun c => .setpos l c
  | _ => none

/-- R76: the operand of PUTS. DESIGN CHOICE (log 16): the text is all between the first and the last double quote of
the operand, double quotes among it. -/
def readPuts (cs : List Char) : Option AsmLine :=
  match trimBlanks cs with
  | '"' :: rest =>
    match rest.reverse with
    | '"' :: text => some (.puts text.reverse)
    | _ => none
  | _ => none

/-- A mnemonic that takes no operands. -/
def readAlone (l : AsmLine) (cs : List Char) : Option AsmLine :=
  if (trimBlanks cs).isEmpty then some l else none

/-- The mnemonic at the head of a line and what follows it. -/
def splitMnemonic : List Char → List Char × List Char
  | [] => ([], [])
  | ch :: rest =>
    if ch = ' ' ∨ ch = '\t' then ([], rest)
    else
      let r := splitMnemonic rest
      (ch :: r.1, r.2)

/-- The line a mnemonic and its operands stand for. -/
def readMnemonic (m operands : List Char) : Option AsmLine :=
  match m with
  | ['I', 'N', 'I', 'T'] => readInit operands
  | ['C', 'M', 'D'] => (readByte operands).map .cmd
  | ['D', 'A', 'T', 'A'] => readData operands
  | ['R', 'E', 'L', 'E', 'A', 'S', 'E'] => readAlone .release operands
  | ['.', 'w', 'o', 'r', 'd'] => (readBelow 2048 operands).map fun n => .word (BitVec.ofNat 11 n)
  | ['C', 'L', 'E', 'A', 'R'] => readAlone .clear operands
  | ['H', 'O', 'M', 'E'] => readAlone .home operands
  | ['S', 'E', 'T', 'P', 'O', 'S'] => readSetpos operands
  | ['S', 'H', 'I', 'F', 'T', 'L'] => readAlone .shiftl operands
  | ['S', 'H', 'I', 'F', 'T', 'R'] => readAlone .shiftr operands
  | ['P', 'U', 'T', 'S'] => readPuts operands
  | _ => none

/-- One line of text, or `none` where the assembler refuses it. A line with nothing on it is `some none`. -/
def readLine (cs : List Char) : Option (Option AsmLine) :=
  match trimBlanks (dropComment false cs) with
  | [] => some none
  | line =>
    let parts := splitMnemonic line
    (readMnemonic parts.1 parts.2).map some

end Sys2Proof.Machine
end

