-- ==== Sys2Proof/Machine/Client.lean ====
section
/-! DEFINITION. The host software at the block's boundary (48_client_layer.md, R122 to R132): the Display Surface
Controller and the Control-Surface Adapter, as functions from their own state to the requests they issue, the error
they return and their state afterwards. It is outside the block (R4) and no step of the machine reads it. -/
namespace Sys2Proof.Machine

/-- R122: the logical cursor (`col` 16 is "past the end of the line") and the text buffer, whose length is the
list's. -/
structure Client where
  line   : Bit
  col    : Nat
  buffer : List Byte
deriving DecidableEq, Repr

/-- The client before any operation: cursor at (0,0), no text. DESIGN CHOICE (log 10): R122 gives no initial values.
No statement rests on it. -/
def Client.start : Client where
  line   := false
  col    := 0
  buffer := []

/-- R122: what a client state can be. -/
def Client.wf (c : Client) : Bool := c.col ≤ 16 && c.buffer.length ≤ 32

/-- R132: the errors the host software returns to its caller; the failure of TIMING_OK, which R130 and R131 call "the
timing failure", has the name of its status (R134). -/
inductive ClientError where
  | pinUnavailable
  | timingPrereq
  | notReady
  | outOfBounds
  | invalidArgument
deriving DecidableEq, Repr

/-- R132, R134: the error that carries a status of the block. No host operation meets ILLEGAL_REQUEST, and NONE is no
request's status. -/
def statusError : Status → Option ClientError
  | .notReady       => some .notReady
  | .pinUnavailable => some .pinUnavailable
  | .timingPrereq   => some .timingPrereq
  | .ok | .illegalRequest | .none => none

/-- What the host software does to the block and around it: a request, an INIT with the levels it presents on BIND_OK
and TIMING_OK (R25, R26), or a wait of its own (R127, R162). -/
inductive ClientAction where
  | request (i : Instr)
  | presentInit (f c b bindOk timingOk : Bit)
  | pause (t : Nat)
deriving DecidableEq, Repr

/-- What an operation does: the error it returns, if it fails, what it does to the block, and the host software's
state afterwards. -/
structure ClientResult where
  error   : Option ClientError
  actions : List ClientAction
  client  : Client
deriving DecidableEq, Repr

/-- An operation that did these things. -/
def Client.did (c : Client) (actions : List ClientAction) : ClientResult := ⟨none, actions, c⟩

/-- An operation that fails before it does anything. -/
def Client.failed (c : Client) (e : ClientError) : ClientResult := ⟨some e, [], c⟩

/-- A second operation after the first, unless that failed. -/
def ClientResult.andThen (r : ClientResult) (next : Client → ClientResult) : ClientResult :=
  match r.error with
  | some _ => r
  | none => { next r.client with actions := r.actions ++ (next r.client).actions }

/-- R123: "require[s] DisplayState = Ready; otherwise fail[s] with `NotReady`"; `ready` is what the block's `STATE`
output says. That this check comes before the operand's is log 10. -/
def Client.whenReady (ready : Bit) (c : Client) (r : ClientResult) : ClientResult :=
  if ready then r else c.failed .notReady

/-! ### Display Surface Controller -/

/-- The logical cursor at (0,0): after `clear()` (R124), and on a freshly initialized display (R133 (4)). -/
def Client.home (c : Client) : Client := { c with line := false, col := 0 }

/-- R124. -/
def clientClear (ready : Bit) (c : Client) : ClientResult := c.whenReady ready (c.home.did [.request .clear])

/-- R10, R125: the request that positions the cursor. -/
def cursorRequest (line : Bit) (col : BitVec 4) : Instr := if line then .setpos1 col else .setpos0 col

/-- R125: "no clamping"; on failure there is no request and the cursor stays. -/
def clientSetCursor (ready : Bit) (line : Bit) (column : Int) (c : Client) : ClientResult :=
  c.whenReady ready <|
    if 0 ≤ column ∧ column < 16 then
      { c with line := line, col := column.toNat }.did [.request (cursorRequest line (BitVec.ofNat 4 column.toNat))]
    else c.failed .outOfBounds

/-- R126: the requests of `print` and the cursor after it. A character past column 15 of line 0 wraps to line 1;
past column 15 of line 1 it and all later ones are dropped. -/
def printFrom (line : Bit) (col : Nat) : List Byte → List ClientAction × (Bit × Nat)
  | [] => ([], (line, col))
  | ch :: rest =>
    if col = 16 then
      if line then ([], (line, col))
      else
        let r := printFrom true 1 rest
        (.request (.setpos1 0) :: .request (.data ch) :: r.1, r.2)
    else
      let r := printFrom line (col + 1) rest
      (.request (.data ch) :: r.1, r.2)

/-- R126. -/
def clientPrint (ready : Bit) (text : List Byte) (c : Client) : ClientResult :=
  let r := printFrom c.line c.col text
  c.whenReady ready ({ c with line := r.2.1, col := r.2.2 }.did r.1)

/-- R127: one step of a scroll and the host's own wait, the open parameter `T_SCROLL_STEP` (D42). -/
def scrollOnce (left : Bit) (stepTime : Nat) : List ClientAction :=
  [.request (if left then .shiftl else .shiftr), .pause stepTime]

/-- R127, R130: `count` steps; a negative count is an InvalidArgument. -/
def clientScroll (ready : Bit) (stepTime : Nat) (left : Bit) (count : Int) (c : Client) : ClientResult :=
  c.whenReady ready <|
    if count < 0 then c.failed .invalidArgument
    else c.did (List.replicate count.toNat (scrollOnce left stepTime)).flatten

/-- `clear()` and `print(TextBuffer)`, which R128 and R129 use. -/
def clientRepaint (ready : Bit) (c : Client) : ClientResult :=
  (clientClear ready c).andThen fun d => clientPrint ready d.buffer d

/-! ### Control-Surface Adapter -/

/-- R128: the text that is kept: at most 32 bytes. -/
def acceptedText (bytes : List Byte) : List Byte := bytes.take 32

/-- R128: a single trailing line terminator becomes a space (D41). -/
def normalizeTerminator (text : List Byte) : List Byte :=
  if text.getLast? = some 0x0A#8 then text.dropLast ++ [0x20#8] else text

/-- R128: what `write` answers. Where `result.error` is none it returns the count `accepted`, with the signal
`truncated`; otherwise it fails with that error. -/
structure WriteResult where
  accepted  : Nat
  truncated : Bit
  result    : ClientResult
deriving DecidableEq, Repr

/-- R128: the text buffer first, then `clear()` and `print(TextBuffer)`, whose NotReady (R123) leaves the text in the
buffer. -/
def clientWrite (ready : Bit) (bytes : List Byte) (c : Client) : WriteResult where
  accepted  := (acceptedText bytes).length
  truncated := decide ((acceptedText bytes).length < bytes.length)
  result    := clientRepaint ready { c with buffer := normalizeTerminator (acceptedText bytes) }

/-- R129: the bytes `read(max_len)` returns at a caller's offset. -/
def readBytes (offset maxLen : Nat) (c : Client) : List Byte := (c.buffer.drop offset).take maxLen

/-- R129: what `read` returns, what it does to the block, and the client afterwards. -/
structure ReadResult where
  bytes   : List Byte
  actions : List ClientAction
  client  : Client
deriving DecidableEq, Repr

/-- R129: whether a read repaints is left open (I6), so it is an argument. The repaint is "decoupled from the caller's
read outcome": where its `clear()` fails (R123) the read returns its bytes all the same. -/
def clientRead (ready repaints : Bit) (offset maxLen : Nat) (c : Client) : ReadResult :=
  let r := if repaints then clientRepaint ready c else c.did []
  { bytes := readBytes offset maxLen c, actions := r.actions, client := r.client }

/-- R131: "Open" is INIT, and returns "success or a binding/timing failure": the error of the status that
INIT answers (R102). `bindOk` and `timingOk` are the outcomes for the new PinAssignment (R25, R26). A display freshly
initialized has the cursor at (0,0), so that a print issues what it issues after `clear()` (R133 (4), W8). That the
text stays, and the cursor where INIT fails, is log 10. -/
def clientOpen (f c b bindOk timingOk : Bit) (cl : Client) : ClientResult where
  error   := if !bindOk then statusError .pinUnavailable else if !timingOk then statusError .timingPrereq else none
  actions := [.presentInit f c b bindOk timingOk]
  client  := if bindOk && timingOk then cl.home else cl

/-- R131: "Close/teardown" is RELEASE. That cursor and text stay is a DESIGN CHOICE (log 10). -/
def clientClose (c : Client) : ClientResult := c.did [.request .release]

/-- R130: the commands of `control`. Of `Reinitialize(PinAssignment)` the block sees the configuration and what
becomes of the new pins, so that is its argument. -/
inductive ClientCommand where
  | clear
  | setLine1 (column : Int)
  | setLine2 (column : Int)
  | scrollLeft (count : Int)
  | scrollRight (count : Int)
  | reinitialize (f c b bindOk timingOk : Bit)
deriving DecidableEq, Repr

/-- The repaint that may follow a cursor or scroll command: left open (I6, N28), so `repaints` is an argument. -/
def ClientResult.mayRepaint (ready repaints : Bit) (r : ClientResult) : ClientResult :=
  r.andThen fun d => if repaints then clientRepaint ready d else d.did []

/-- R130, R131. -/
def clientControl (ready repaints : Bit) (stepTime : Nat) (cmd : ClientCommand) (c : Client) : ClientResult :=
  match cmd with
  | .clear => clientClear ready c
  | .setLine1 column => (clientSetCursor ready false column c).mayRepaint ready repaints
  | .setLine2 column => (clientSetCursor ready true column c).mayRepaint ready repaints
  | .scrollLeft count => (clientScroll ready stepTime true count c).mayRepaint ready repaints
  | .scrollRight count => (clientScroll ready stepTime false count c).mayRepaint ready repaints
  | .reinitialize f cur b bindOk timingOk => clientOpen f cur b bindOk timingOk c

/-! ### The stream of requests -/

/-- The request an action presents to the block. -/
def ClientAction.instr? : ClientAction → Option Instr
  | .request i => some i
  | .presentInit f c b _ _ => some (.init f c b)
  | .pause _ => none

/-- The requests among the actions, in order: the stream the block sees. -/
def requestsOf (acts : List ClientAction) : List Instr := acts.filterMap ClientAction.instr?

/-- The data bytes among the requests, in order: the characters sent. -/
def dataBytesOf (acts : List ClientAction) : List Byte :=
  (requestsOf acts).filterMap fun | .data p => some p | _ => none

end Sys2Proof.Machine
end

