-- ==== Sys2Proof/Safety.lean ====
section
/-! DEFINITION. What the statements about the machine are said in: what a trace shows, which states and programs
are safe, when the timing of a trace meets the floors, and what it means that a request runs to its end. -/
namespace Sys2Proof.Safety

open Sys2Proof.Machine

/-! ### What a trace shows -/

/-- The enable pulses of a trace, oldest first: what stands on RS and the data lines while E is high (R71). -/
def pulses : List PinRecord → List (Bit × Nibble)
  | [] => []
  | r :: rest => if r.E then (r.RS, r.D) :: pulses rest else pulses rest

/-- The pulses of a list of bytes sent with one RS (R51, R52). -/
def bytePulses (rs : Bit) (b : Byte) : List (Bit × Nibble) := [(rs, highNibble b), (rs, lowNibble b)]

/-- Rising and falling times of the pulses, oldest first; a pulse ends at the record after its rise. -/
def pulseTimes : List PinRecord → List (Nat × Nat)
  | r1 :: r2 :: rest => if r1.E then (r1.t, r2.t) :: pulseTimes (r2 :: rest) else pulseTimes (r2 :: rest)
  | _ => []

/-- Every pulse is high for at least `width`. -/
def pulsesAtLeast (width : Nat) (ps : List (Nat × Nat)) : Bool := ps.all fun p => decide (p.1 + width ≤ p.2)

/-- From each falling edge to the next rising edge at least the floor listed for that gap, and as many gaps as
floors. -/
def gapsAtLeast : List Nat → List (Nat × Nat) → Bool
  | g :: gs, p :: q :: rest => decide (p.2 + g ≤ q.1) && gapsAtLeast gs (q :: rest)
  | [], [_] => true
  | _, _ => false

/-- R137: every line of the block low, or not driven at all. -/
def linesLow (s : State) : Prop := s.RS = false ∧ s.E = false ∧ s.D = 0#4

/-! ### Programs, read from the request word alone (R70) -/

/-- R70, from the raw word: the micro-program of an accepted request. It is written over the word's fields, and
does not use the decoder's instructions. -/
def requestProgram (w : ReqWord) (s : State) : List MicroOp :=
  if illegalWord w then [.complete .illegalRequest]
  else if opField w = 0b001#3 then
    progInit ((payloadField w).getLsbD 0) ((payloadField w).getLsbD 1) ((payloadField w).getLsbD 2) s
  else if opField w = 0b010#3 then progCmd (payloadField w) s
  else if opField w = 0b011#3 then progData (payloadField w) s
  else progRelease s

/-- The request word an instruction is presented as; a display transfer has none. -/
def requestWordOf (i : Instr) : Option ReqWord :=
  match encode i with
  | .request w => some w
  | .nibble _ _ => none
  | .byte _ _ => none

/-- The status a request completes with (R134, R136), from its word and the state at acceptance. -/
def requestStatus (w : ReqWord) (s : State) : Status :=
  if illegalWord w then .illegalRequest
  else if (opField w = 0b010#3 ∨ opField w = 0b011#3) ∧ s.DSTATE ≠ .ready then .notReady
  else if opField w = 0b001#3 ∧ s.ports.BIND_OK = false then .pinUnavailable
  else if opField w = 0b001#3 ∧ s.ports.TIMING_OK = false then .timingPrereq
  else .ok

/-! ### Runs -/

/-- The host keeps reset released now and for all its script (R149 does not intervene). -/
def resetStaysLow (s : State) : Prop := s.ports.RESET = false ∧ ∀ p ∈ s.script, p.RESET = false

/-- The block can take a request now and nothing resets it while it runs. -/
def canRun (s : State) : Prop := s.BUSY = false ∧ resetStaysLow s

/-- `exec i s` answers a next state, and from it the sequencer's `n` steps (R78) end in `u`. -/
def runsTo (i : Instr) (s : State) (n : Nat) (u : State) : Prop :=
  ∃ t, exec i s = .next t ∧ Sys2Proof.core.run n t = .next u

/-- What no performed or failed request without a change of binding writes, from acceptance to completion. -/
def sameBinding (s u : State) : Prop :=
  u.cfg = s.cfg ∧ u.DSTATE = s.DSTATE ∧ u.OE = s.OE ∧ u.REL = s.REL ∧ u.ISTEP = s.ISTEP ∧
    u.CFG_F = s.CFG_F ∧ u.CFG_C = s.CFG_C ∧ u.CFG_B = s.CFG_B ∧ u.earlier = s.earlier

/-- One response, with this status, at the end; the block idle again (R27, R89). -/
def completedWith (st : Status) (s u : State) : Prop :=
  u.STATUS = st ∧ u.BUSY = false ∧ u.responses = s.responses ++ [{ t := u.now, status := st }]

/-- The three records of one nibble transfer begun at `t` with E at `e0`, with the draws of its first two waits
(R90; `Drive` does not write E, R80). -/
def nibbleRecords (T : Timing) (t : Nat) (oe e0 rs : Bit) (v : Nibble) (d0 d1 : Nat) : List PinRecord :=
  [ { t := t, OE := oe, RS := rs, E := e0, D := v },
    { t := t + T.T_SETUP_MIN + d0, OE := oe, RS := rs, E := true, D := v },
    { t := t + T.T_SETUP_MIN + d0 + T.T_EN_HIGH_MIN + d1, OE := oe, RS := rs, E := false, D := v } ]

/-- When a nibble transfer begun at `t` ends (R90). -/
def nibbleEnd (T : Timing) (t : Nat) (tpost d0 d1 d2 : Nat) : Nat :=
  t + T.T_SETUP_MIN + d0 + T.T_EN_HIGH_MIN + d1 + max T.T_SETTLE_MIN tpost + d2

/-- `u` is `s` after the one nibble transfer `NT(v, rs, tpost)` (R90), `upc`, the request registers and the inputs
apart. -/
def nibbleSent (v : Nibble) (rs : Bit) (tpost : Nat) (s u : State) : Prop :=
  let w := fun k => Config.waitSlack (s.draws + k)
  u.RS = rs ∧ u.E = false ∧ u.D = v ∧
    u.trace = s.trace ++ nibbleRecords s.cfg.timing s.now s.OE s.E rs v (w 0) (w 1) ∧
    u.now = nibbleEnd s.cfg.timing s.now tpost (w 0) (w 1) (w 2) ∧ u.draws = s.draws + 3

/-- `u` is `s` after the byte transfer `BYTE(b, rs, tpost)` (R93), high nibble first. -/
def byteSent (b : Byte) (rs : Bit) (tpost : Nat) (s u : State) : Prop :=
  let w := fun k => Config.waitSlack (s.draws + k)
  let mid := nibbleEnd s.cfg.timing s.now 0 (w 0) (w 1) (w 2)
  u.RS = rs ∧ u.E = false ∧ u.D = b.extractLsb' 0 4 ∧
    u.trace = s.trace ++ nibbleRecords s.cfg.timing s.now s.OE s.E rs (b.extractLsb' 4 4) (w 0) (w 1)
      ++ nibbleRecords s.cfg.timing mid s.OE false rs (b.extractLsb' 0 4) (w 3) (w 4) ∧
    u.now = nibbleEnd s.cfg.timing mid tpost (w 3) (w 4) (w 5) ∧ u.draws = s.draws + 6

/-- What a display transfer leaves alone (R90: "a pure timed side effect"). -/
def onlyLinesAndTime (s u : State) : Prop :=
  sameBinding s u ∧ u.STATUS = s.STATUS ∧ u.BUSY = s.BUSY ∧ u.CUR = s.CUR ∧ u.PROG = s.PROG ∧ u.upc = s.upc ∧
    u.responses = s.responses ∧ u.ports = s.ports ∧ u.script = s.script

/-! ### The control invariant -/

/-- R33: the transitions of `DSTATE` a request makes: to Initializing and, by RELEASE, to Uninitialized from any
idle state; from Initializing to Ready or Faulted. -/
def legalTransition (a b : DisplayState) : Bool :=
  if a = .initializing then b == .ready || b == .faulted else b == .initializing || b == .uninitialized

/-- When a request of this OP may pulse the enable line (R99): CMD and DATA in Ready, INIT while Initializing. -/
def mayPulse (op : BitVec 3) (ds : DisplayState) : Bool :=
  if op = 0b001#3 then ds == .initializing else (op == 0b010#3 || op == 0b011#3) && ds == .ready

/-- The one RS level of a request's transfers (R94, R107): 1 for DATA, 0 for CMD and INIT. -/
def requestRs (op : BitVec 3) : Bit := op == 0b011#3

/-- What holds between requests: not Initializing (R34), E low (R36), and a binding exactly in Ready (R35, R96,
R102, R120). -/
def idleSafe (ds : DisplayState) (oe e : Bit) : Bool := ds != .initializing && !e && oe == (ds == .ready)

/-- What is left of the program of a request of this OP, started in these registers (DSTATE, OE, E, RS), is safe:
`Complete` comes once, at its end (R42); the lines are driven and pulsed only while bound (R90), with E low at every
`Drive` (R80), where the request may pulse (R99) and with its RS (R52, R94, R107); every change of `DSTATE` is one of
R33, to Initializing by INIT alone (R34); it ends as `idleSafe`. -/
def safeProgram (op : BitVec 3) : List MicroOp → DisplayState → Bit → Bit → Bit → Bool
  | [], _, _, _, _ => false
  | .complete _ :: rest, ds, oe, e, _ => rest.isEmpty && idleSafe ds oe e
  | .drive r _ :: rest, ds, oe, e, _ =>
    oe && !e && mayPulse op ds && r == requestRs op && safeProgram op rest ds oe e r
  | .enHigh :: rest, ds, oe, e, rs =>
    oe && !e && mayPulse op ds && rs == requestRs op && safeProgram op rest ds oe true rs
  | .enLow :: rest, ds, oe, e, rs => oe && e && safeProgram op rest ds oe false rs
  | .wait _ :: rest, ds, oe, e, rs => safeProgram op rest ds oe e rs
  | .bind :: rest, ds, oe, e, _ => !oe && !e && ds == .initializing && safeProgram op rest ds true false false
  | .release :: rest, ds, oe, e, _ => oe && !e && safeProgram op rest ds false false false
  | .setState d :: rest, ds, oe, e, rs =>
    legalTransition ds d && (d != .initializing || op == 0b001#3) && safeProgram op rest d oe e rs
  | .step _ :: rest, ds, oe, e, rs => safeProgram op rest ds oe e rs
  | .latch _ _ _ :: rest, ds, oe, e, rs => safeProgram op rest ds oe e rs

/-- What every step keeps, whatever the host does. -/
structure ControlInv (s : State) : Prop where
  /-- R42: while a request is in flight `upc` is in PROG, and the rest of PROG is safe from here. -/
  inFlight : s.BUSY = true → safeProgram (opField s.CUR) (s.PROG.drop s.upc) s.DSTATE s.OE s.E s.RS = true
  /-- R34, R35, R36: what holds between requests. -/
  idle : s.BUSY = false → idleSafe s.DSTATE s.OE s.E = true
  /-- R36, R84, R85: the output registers are 0 while the block drives nothing. -/
  unbound : s.OE = false → linesLow s
  /-- R34: Initializing is an INIT in flight. -/
  initializing : s.BUSY = true → s.DSTATE = .initializing → opField s.CUR = 0b001#3

/-! ### The timing invariant -/

/-- What a trace's last records leave to wait for: after a rise the pulse width, after a fall the settle interval,
otherwise only the set-up before a rise. -/
inductive Phase where
  | low
  | high
  | settling
deriving DecidableEq, Repr

/-- The two records at the end of a trace, last first. -/
def phaseOf : List PinRecord → Phase
  | [] => .low
  | r :: rest =>
    if r.E then .high
    else match rest with
      | [] => .low
      | p :: _ => if p.E then .settling else .low

/-- The phase a trace ends in. -/
def tracePhase (tr : List PinRecord) : Phase := phaseOf tr.reverse

/-- How long ago the last record was. -/
def elapsed (s : State) : Nat :=
  match s.trace.getLast? with
  | some r => s.now - r.t
  | none => s.now

/-- The settle interval is over, or there is none to wait for (R156). -/
def settled (T : Timing) (ph : Phase) (el : Nat) : Bool :=
  match ph with
  | .low => true
  | .high => false
  | .settling => decide (T.T_SETTLE_MIN ≤ el)

/-- A program started in this phase, this long after the last record, meets the floors of R91 whatever its waits
draw: set-up before a rise (R154), width (R155), settle after a fall (R156), and it ends settled. -/
def timedProgram (T : Timing) : List MicroOp → Phase → Nat → Bool
  | [], _, _ => false
  | .complete _ :: _, ph, el => settled T ph el
  | .drive _ _ :: rest, ph, el => settled T ph el && timedProgram T rest .low 0
  | .enHigh :: rest, ph, el => ph == .low && decide (T.T_SETUP_MIN ≤ el) && timedProgram T rest .high 0
  | .enLow :: rest, ph, el => ph == .high && decide (T.T_EN_HIGH_MIN ≤ el) && timedProgram T rest .settling 0
  | .wait tmin :: rest, ph, el => timedProgram T rest ph (el + tmin)
  | .bind :: rest, ph, el => settled T ph el && timedProgram T rest .low 0
  | .release :: rest, ph, el => settled T ph el && timedProgram T rest .low 0
  | .setState _ :: rest, ph, el => timedProgram T rest ph el
  | .step _ :: rest, ph, el => timedProgram T rest ph el
  | .latch _ _ _ :: rest, ph, el => timedProgram T rest ph el

/-- Two records show the same driven RS and data (R91: "keep their values"). -/
def sameData (r1 r2 : PinRecord) : Bool := r1.OE && r2.OE && r1.RS == r2.RS && r1.D == r2.D

/-- One record after another meets R91 (a), (b): a rise comes at least the set-up after the lines were driven, a
fall at least the pulse width after the rise, with RS and data unchanged; a pulse is over before the next. -/
def edgeOk (T : Timing) (r1 r2 : PinRecord) : Bool :=
  decide (r1.t ≤ r2.t) &&
    match r1.E, r2.E with
    | false, false => true
    | false, true => sameData r1 r2 && decide (r1.t + T.T_SETUP_MIN ≤ r2.t)
    | true, false => sameData r1 r2 && decide (r1.t + T.T_EN_HIGH_MIN ≤ r2.t)
    | true, true => false

/-- R91 (c): nothing changes for the settle interval after a fall. -/
def settleOk (T : Timing) (r0 r1 r2 : PinRecord) : Bool :=
  !(r0.E && !r1.E) || decide (r1.t + T.T_SETTLE_MIN ≤ r2.t)

/-- `edgeOk` all along a trace, oldest record first. -/
def edgesOk (T : Timing) : List PinRecord → Bool
  | r1 :: r2 :: rest => edgeOk T r1 r2 && edgesOk T (r2 :: rest)
  | _ => true

/-- `settleOk` all along a trace, oldest record first. -/
def settlesOk (T : Timing) : List PinRecord → Bool
  | r0 :: r1 :: r2 :: rest => settleOk T r0 r1 r2 && settlesOk T (r1 :: r2 :: rest)
  | _ => true

/-- A trace begins with E low. -/
def startsLow : List PinRecord → Bool
  | [] => true
  | r :: _ => !r.E

/-- A whole trace meets R91 (a) to (c) and is in the order of time (R58). -/
def traceTimed (T : Timing) (tr : List PinRecord) : Bool := startsLow tr && edgesOk T tr && settlesOk T tr

/-- The registers of the lines are what the last record shows (R79). -/
def showsLines (s : State) (r : PinRecord) : Prop := r.OE = s.OE ∧ r.RS = s.RS ∧ r.E = s.E ∧ r.D = s.D

/-- What every step keeps of the timing, whatever the waits draw and the host does. -/
structure TimingInv (s : State) : Prop where
  /-- The trace so far meets R91. -/
  trace : traceTimed s.cfg.timing s.trace = true
  /-- The last record is not in the future and shows the lines as they are. -/
  last : ∀ r, s.trace.getLast? = some r → r.t ≤ s.now ∧ showsLines s r
  /-- Before the first record E is low. -/
  first : s.trace = [] → s.E = false
  /-- A binding left a record (R84). -/
  bound : s.OE = true → s.trace ≠ []
  /-- The rest of the program in flight will meet R91 as well. -/
  inFlight : s.BUSY = true →
    timedProgram s.cfg.timing (s.PROG.drop s.upc) (tracePhase s.trace) (elapsed s) = true
  /-- Between requests the last transfer has settled (R156). -/
  idle : s.BUSY = false → settled s.cfg.timing (tracePhase s.trace) (elapsed s) = true

/-! ### The host's duties that the ports and payloads show -/

/-- R163: a request that is presented and not accepted in this step keeps REQ, BIND_OK and TIMING_OK for as long as
REQ_VALID is 1. That REQ_VALID itself stays 1 is not asked: R163 does not list it, and R24 speaks of a request "while
it is still presented". -/
def heldStable (accepted : Bit) (p q : Ports) : Bool :=
  !(p.REQ_VALID && !accepted && q.REQ_VALID) ||
    (q.REQ == p.REQ && q.BIND_OK == p.BIND_OK && q.TIMING_OK == p.TIMING_OK)

/-- R160: the command bytes a host must not send: function set with the 8-bit bit, and CGRAM addresses. -/
def forbiddenPayload (p : Byte) : Bool := p.extractLsb' 4 4 == 0x3#4 || p.extractLsb' 6 2 == 0b01#2

/-- R153: the run has ended, when the block is idle, out of reset, and no request is presented now or later. -/
def runEnded (s : State) : Bool :=
  !s.BUSY && !s.ports.RESET && !s.ports.REQ_VALID && s.script.all fun p => !p.REQ_VALID

end Sys2Proof.Safety
end

