-- ==== Sys2Proof/Certificates/Slice0/Obligations.lean ====
section
/-! DEFINITION. The statements for the provers. -/

open Sys2Proof Sys2Proof.Machine Sys2Proof.Safety

/-! ### Reset -/

/-- R46: the value of every element after reset; REQ_READY is 1 and the block waits for a request. -/
def Obligations.ResetStateHasTheSpecValues : Prop :=
  let s := State.reset
  s.DSTATE = .uninitialized ∧ s.OE = false ∧ s.REL = false ∧ s.RS = false ∧ s.E = false ∧ s.D = 0b0000#4 ∧
    s.CFG_F = false ∧ s.CFG_C = false ∧ s.CFG_B = false ∧ s.STATUS = .none ∧ s.STATUS.code = 0b111#3 ∧
    s.BUSY = false ∧ s.CUR = 0#11 ∧ s.PROG = [] ∧ s.upc = 0 ∧ s.ISTEP = .idle ∧ s.reqReady = true

/-- R149: while RESET = 1, whatever is in flight or presented, every element of the block takes its reset value and
the time restarts at 0; no micro-operation is performed, so no pin record and no response is added to those of the
whole history, which is kept in `earlier` (the model's choice, log 5); the parameters stay (log 2). -/
def Obligations.ResetInputResetsTheBlock : Prop :=
  ∀ s : State, s.ports.RESET = true → ∃ t, step s = .next t ∧
    t.DSTATE = .uninitialized ∧ t.OE = false ∧ t.REL = false ∧ t.RS = false ∧ t.E = false ∧ t.D = 0b0000#4 ∧
    t.CFG_F = false ∧ t.CFG_C = false ∧ t.CFG_B = false ∧ t.STATUS = .none ∧ t.BUSY = false ∧ t.CUR = 0#11 ∧
    t.PROG = [] ∧ t.upc = 0 ∧ t.ISTEP = .idle ∧ t.now = 0 ∧ t.cfg = s.cfg ∧
    t.earlier.flatMap Observation.trace ++ t.trace = s.earlier.flatMap Observation.trace ++ s.trace ∧
    t.earlier.flatMap Observation.responses ++ t.responses =
      s.earlier.flatMap Observation.responses ++ s.responses

/-! ### Steps -/

/-- A step of an idle block out of reset, at whose port the word of a well-formed request `i` is presented, is `exec
i`, followed by the inputs of the next step (R23, R70, R77; that the inputs are a script is the model's choice, log
4). -/
def Obligations.StepRunsTheDecodedRequest : Prop :=
  ∀ (i : Instr) (w : ReqWord) (s : State), i.wf = true → encode i = .request w → s.ports.REQ = w →
    s.ports.REQ_VALID = true → s.ports.RESET = false → s.BUSY = false →
    step s = mapNext (nextInputs true) (exec i s)

/-- R78: while a request is in flight a step performs the micro-operation at `upc` and adds one to `upc`; whatever the
host presents, the request in flight and its program stay (R56). The inputs then move on by the script, the model's
choice (log 4). -/
def Obligations.StepPerformsTheMicroOperationAtUpc : Prop :=
  ∀ (op : MicroOp) (s : State), s.ports.RESET = false → s.BUSY = true → s.PROG[s.upc]? = some op →
    step s = .next (nextInputs false (nextUpc (microOpDrawn op s))) ∧
    ∀ t, step s = .next t → t.upc = s.upc + 1 ∧ t.PROG = s.PROG ∧ t.CUR = s.CUR ∧ t.cfg = s.cfg

/-- R24: REQ_READY is 1 exactly when BUSY = 0 and reset is not asserted; a request presented while it is 0 is held:
nothing happens to the block, and while the host goes on presenting it, it is still at the port after the step (an
exhausted script holds the inputs: the model's choice, log 4). -/
def Obligations.RequestPresentedWhileNotReadyIsHeld : Prop :=
  ∀ s : State, (s.reqReady = true ↔ s.BUSY = false ∧ s.ports.RESET = false) ∧
    ∀ i : Instr, i.isRequest = true →
      (s.reqReady = false → exec i s = .next s) ∧
      (s.ports.RESET = false → s.BUSY = true → s.script = [] → ∀ t, step s = .next t → t.ports = s.ports)

/-- With no request presented to an idle block out of reset, a step changes nothing but the inputs (R46, R148; the
inputs are log 4). -/
def Obligations.IdleBlockWaits : Prop :=
  ∀ s : State, s.ports.RESET = false → s.BUSY = false → s.ports.REQ_VALID = false →
    ∃ t, step s = .next t ∧ { t with ports := s.ports, script := s.script } = s

/-- R77: accepting a request writes CUR, PROG, `upc` and BUSY and nothing else; PROG is what R70 computes from the
word, the state and the sampled inputs. -/
def Obligations.AcceptanceFollowsTheWord : Prop :=
  ∀ (i : Instr) (w : ReqWord) (s : State), i.wf = true → encode i = .request w → s.reqReady = true →
    exec i s = .next { s with CUR := w, PROG := requestProgram w s, upc := 0, BUSY := true }

/-- R80 to R85, R79: what the micro-operations that write a line write, and the records they append. -/
def Obligations.LineMicroOperationsWriteAndRecord : Prop :=
  ∀ (op : MicroOp) (s t : State), s.ports.RESET = false → s.BUSY = true → s.PROG[s.upc]? = some op →
    step s = .next t →
    (∀ rs d, op = .drive rs d → t.RS = rs ∧ t.D = d ∧ t.E = s.E ∧ t.OE = s.OE ∧ t.REL = s.REL ∧ t.now = s.now ∧
      t.trace = s.trace ++ [⟨s.now, s.OE, rs, s.E, d⟩]) ∧
    (op = .enHigh → t.E = true ∧ t.RS = s.RS ∧ t.D = s.D ∧ t.OE = s.OE ∧ t.REL = s.REL ∧ t.now = s.now ∧
      t.trace = s.trace ++ [⟨s.now, s.OE, s.RS, true, s.D⟩]) ∧
    (op = .enLow → t.E = false ∧ t.RS = s.RS ∧ t.D = s.D ∧ t.OE = s.OE ∧ t.REL = s.REL ∧ t.now = s.now ∧
      t.trace = s.trace ++ [⟨s.now, s.OE, s.RS, false, s.D⟩]) ∧
    (op = .bind → t.OE = true ∧ t.RS = false ∧ t.E = false ∧ t.D = 0#4 ∧ t.REL = s.REL ∧ t.now = s.now ∧
      t.trace = s.trace ++ [⟨s.now, true, false, false, 0#4⟩]) ∧
    (op = .release → t.OE = false ∧ t.REL = true ∧ t.RS = false ∧ t.E = false ∧ t.D = 0#4 ∧ t.now = s.now ∧
      t.trace = s.trace ++ [⟨s.now, true, false, false, 0#4⟩, ⟨s.now, false, false, false, 0#4⟩])

/-- R83, R86 to R89: what the other micro-operations write; none of them changes a line or the pin trace, and each of
the registers DSTATE, ISTEP, CFG_*, STATUS, BUSY changes by its own micro-operation only. -/
def Obligations.OtherMicroOperationsChangeNoLine : Prop :=
  ∀ (op : MicroOp) (s t : State), s.ports.RESET = false → s.BUSY = true → s.PROG[s.upc]? = some op →
    step s = .next t →
    (∀ tmin, op = .wait tmin → s.now + tmin ≤ t.now) ∧
    (∀ d, op = .setState d → t.DSTATE = d) ∧
    (∀ i, op = .step i → t.ISTEP = i) ∧
    (∀ f c b, op = .latch f c b → t.CFG_F = f ∧ t.CFG_C = c ∧ t.CFG_B = b) ∧
    (∀ st, op = .complete st → t.STATUS = st ∧ t.BUSY = false ∧ t.responses = s.responses ++ [⟨s.now, st⟩]) ∧
    ((∀ rs d, op ≠ .drive rs d) → op ≠ .enHigh → op ≠ .enLow → op ≠ .bind → op ≠ .release →
      t.RS = s.RS ∧ t.E = s.E ∧ t.D = s.D ∧ t.OE = s.OE ∧ t.REL = s.REL ∧ t.trace = s.trace) ∧
    ((∀ tmin, op ≠ .wait tmin) → t.now = s.now) ∧
    ((∀ d, op ≠ .setState d) → t.DSTATE = s.DSTATE) ∧
    ((∀ i, op ≠ .step i) → t.ISTEP = s.ISTEP) ∧
    ((∀ f c b, op ≠ .latch f c b) → t.CFG_F = s.CFG_F ∧ t.CFG_C = s.CFG_C ∧ t.CFG_B = s.CFG_B) ∧
    ((∀ st, op ≠ .complete st) → t.STATUS = s.STATUS ∧ t.BUSY = true ∧ t.responses = s.responses)

/-- R15, R16: out of reset only a `Wait` advances the time, by at least its floor, and no step takes the time back. -/
def Obligations.OnlyWaitAdvancesTime : Prop :=
  ∀ s t : State, s.ports.RESET = false → step s = .next t →
    t.now = s.now ∨ (s.BUSY = true ∧ ∃ tmin, s.PROG[s.upc]? = some (.wait tmin) ∧ s.now + tmin ≤ t.now)

/-! ### CMD and DATA -/

/-- R96 (with R74, R93, R94): in Ready, CMD with any byte sends it with RS = 0, high nibble first, waits the clear
time after a long-executing byte and the settle time after any other, and completes with OK; DSTATE, OE and CFG_* are
never written. -/
def Obligations.CmdInReadySendsItsByte : Prop :=
  ∀ (p : Byte) (s : State), canRun s → s.DSTATE = .ready → ∃ u, runsTo (.cmd p) s 13 u ∧
    byteSent p false (if p ∈ s.cfg.cmds.LONG_EXEC_CMDS then s.cfg.timing.T_CLEAR_MIN else 0) s u ∧
    completedWith .ok s u ∧ sameBinding s u

/-- R97: in Ready, DATA with any byte sends it with RS = 1, high nibble first, waits the settle time and completes
with OK; DSTATE, OE and CFG_* are never written. -/
def Obligations.DataInReadySendsItsByte : Prop :=
  ∀ (p : Byte) (s : State), canRun s → s.DSTATE = .ready → ∃ u, runsTo (.data p) s 13 u ∧
    byteSent p true 0 s u ∧ completedWith .ok s u ∧ sameBinding s u

/-- R76: in Ready each pseudo-request sends the command byte of its expansion and completes with OK. -/
def Obligations.PseudoRequestsSendTheirExpansion : Prop :=
  ∀ (i : Instr) (b : Byte) (s : State),
    ((i = .clear ∧ b = 0x01#8) ∨ (i = .home ∧ b = 0x02#8) ∨
      (∃ col, i = .setpos0 col ∧ b = 0x80#8 + col.setWidth 8) ∨
      (∃ col, i = .setpos1 col ∧ b = 0xC0#8 + col.setWidth 8) ∨
      (i = .shiftl ∧ b = 0x18#8) ∨ (i = .shiftr ∧ b = 0x1C#8)) →
    exec i s = exec (.cmd b) s ∧
    (canRun s → s.DSTATE = .ready → ∃ u, runsTo i s 13 u ∧
      byteSent b false (if b ∈ s.cfg.cmds.LONG_EXEC_CMDS then s.cfg.timing.T_CLEAR_MIN else 0) s u ∧
      completedWith .ok s u ∧ sameBinding s u)

/-- R95: outside Ready, CMD, DATA and the pseudo-requests complete at once with NOT_READY; no line, no register and no
time changes but STATUS, the request's own registers and the response. At acceptance DSTATE is then Uninitialized or
Faulted, never Initializing, in every state with the control invariant. -/
def Obligations.SendingOutsideReadyIsNotReady : Prop :=
  ∀ (i : Instr) (s : State),
    ((∃ p, i = .cmd p) ∨ (∃ p, i = .data p) ∨ i = .clear ∨ i = .home ∨ (∃ col, i = .setpos0 col) ∨
      (∃ col, i = .setpos1 col) ∨ i = .shiftl ∨ i = .shiftr) →
    canRun s → s.DSTATE ≠ .ready →
      (∃ u, runsTo i s 1 u ∧ completedWith .notReady s u ∧ sameBinding s u ∧
        u.RS = s.RS ∧ u.E = s.E ∧ u.D = s.D ∧ u.trace = s.trace ∧ u.now = s.now) ∧
      (ControlInv s → s.DSTATE = .uninitialized ∨ s.DSTATE = .faulted)

/-- R98, an inference of the spec: a performed CMD or DATA emits exactly two pulses, both with its RS, the first the
high nibble and the second the low one; the gap from the first fall to the second rise is at least settle and set-up,
and the wait after the second fall at least the clear time for a long-executing command and the settle time otherwise.
-/
def Obligations.PerformedByteEmitsTwoSpacedPulses : Prop :=
  ∀ (i : Instr) (rs : Bit) (p : Byte) (s : State), (i = .cmd p ∧ rs = false) ∨ (i = .data p ∧ rs = true) →
    ControlInv s → canRun s → s.DSTATE = .ready → ∃ u new, runsTo i s 13 u ∧ u.trace = s.trace ++ new ∧
      pulses new = [(rs, p.extractLsb' 4 4), (rs, p.extractLsb' 0 4)] ∧ (∀ r ∈ new, r.RS = rs) ∧
      ∃ r1 f1 r2 f2, pulseTimes new = [(r1, f1), (r2, f2)] ∧
        r1 + s.cfg.timing.T_EN_HIGH_MIN ≤ f1 ∧ r2 + s.cfg.timing.T_EN_HIGH_MIN ≤ f2 ∧
        f1 + s.cfg.timing.T_SETTLE_MIN + s.cfg.timing.T_SETUP_MIN ≤ r2 ∧
        f2 + s.cfg.timing.T_SETTLE_MIN ≤ u.now ∧
        (rs = false → p ∈ s.cfg.cmds.LONG_EXEC_CMDS → f2 + s.cfg.timing.T_CLEAR_MIN ≤ u.now)

/-! ### Reserved words -/

/-- R69: an illegal word is accepted like any other, whatever DSTATE is, and completes at once with ILLEGAL_REQUEST;
it changes no line, no DSTATE, no CFG_* and no OE. -/
def Obligations.IllegalRequestChangesNothing : Prop :=
  ∀ (i : Instr) (w : ReqWord) (s : State), i.wf = true → encode i = .request w →
    ((∃ p, i = .illegalOp000 p) ∨ (∃ p, i = .illegalInitRsvd p) ∨ (∃ p, i = .illegalReleasePayload p) ∨
      (∃ p, i = .illegalOp101 p) ∨ (∃ p, i = .illegalOp110 p) ∨ (∃ p, i = .illegalOp111 p)) →
    illegalWord w = true ∧
    (canRun s → ∃ u, runsTo i s 1 u ∧ completedWith .illegalRequest s u ∧ sameBinding s u ∧
      u.RS = s.RS ∧ u.E = s.E ∧ u.D = s.D ∧ u.trace = s.trace ∧ u.now = s.now)

/-! ### RELEASE -/

/-- R120 with a binding: RELEASE drives the lines low, lets them go, leaves DSTATE Uninitialized and answers OK; two
records, both now; CFG_* are kept. -/
def Obligations.ReleaseWithABindingLetsTheLinesGoLow : Prop :=
  ∀ s : State, canRun s → s.OE = true → ∃ u, runsTo .release s 4 u ∧ completedWith .ok s u ∧
    u.DSTATE = .uninitialized ∧ u.OE = false ∧ u.REL = true ∧ linesLow u ∧ u.ISTEP = .idle ∧
    u.trace = s.trace ++ [⟨s.now, true, false, false, 0#4⟩, ⟨s.now, false, false, false, 0#4⟩] ∧ u.now = s.now ∧
    u.CFG_F = s.CFG_F ∧ u.CFG_C = s.CFG_C ∧ u.CFG_B = s.CFG_B ∧ u.cfg = s.cfg ∧ u.earlier = s.earlier

/-- R120 without a binding: RELEASE changes no line and adds no record; it is no error. -/
def Obligations.ReleaseWithoutABindingTouchesNoLine : Prop :=
  ∀ s : State, canRun s → s.OE = false → ∃ u, runsTo .release s 3 u ∧ completedWith .ok s u ∧
    u.DSTATE = .uninitialized ∧ u.OE = false ∧ u.REL = s.REL ∧ u.RS = s.RS ∧ u.E = s.E ∧ u.D = s.D ∧
    u.ISTEP = .idle ∧ u.trace = s.trace ∧ u.now = s.now ∧
    u.CFG_F = s.CFG_F ∧ u.CFG_C = s.CFG_C ∧ u.CFG_B = s.CFG_B ∧ u.cfg = s.cfg ∧ u.earlier = s.earlier

/-! ### INIT -/

/-- R100, R101, R103, R116, and R117, an inference of the spec: with both prerequisites, INIT from any idle state
releases an old binding, binds, latches f, c, b, emits the fourteen pulses of the sequence, all with RS = 0, and ends
Ready with OK, the lines as the last nibble left them. -/
def Obligations.InitSucceedsAndSendsTheSequence : Prop :=
  ∀ (f c b : Bit) (s : State), canRun s → s.ports.BIND_OK = true → s.ports.TIMING_OK = true →
    ∃ u new, runsTo (.init f c b) s (if s.OE then 103 else 102) u ∧ completedWith .ok s u ∧
      u.DSTATE = .ready ∧ u.ISTEP = .done ∧ u.OE = true ∧ u.RS = false ∧ u.E = false ∧
      u.D = (displayOnByte s.cfg.cmds c b).extractLsb' 0 4 ∧ u.earlier = s.earlier ∧
      u.REL = (s.REL || s.OE) ∧ u.CFG_F = f ∧ u.CFG_C = c ∧ u.CFG_B = b ∧ u.cfg = s.cfg ∧
      u.trace = s.trace ++
        (if s.OE then [⟨s.now, true, false, false, 0#4⟩, ⟨s.now, false, false, false, 0#4⟩] else []) ++
        [⟨s.now, true, false, false, 0#4⟩] ++ new ∧
      pulses new =
        [(false, 0x3#4), (false, 0x3#4), (false, 0x3#4), (false, 0x2#4)] ++
        bytePulses false (functionSetByte s.cfg.cmds f) ++ bytePulses false s.cfg.cmds.DISPOFF ++
        bytePulses false s.cfg.cmds.CLEARDISP ++ bytePulses false s.cfg.cmds.ENTRYMODE ++
        bytePulses false (displayOnByte s.cfg.cmds c b)

/-- R105, R9: the two configured bytes, for any command bytes and at their defaults; and the default values of the
other parameters the sequence sends. The defaults are general knowledge by the spec's own mark (log 11, PRESUMED). -/
def Obligations.DefaultInitBytesAreThoseOfTheRules : Prop :=
  (∀ (C : CommandBytes) (f c b : Bit),
    functionSetByte C f = C.FUNCSET_BASE ||| (if f then 0b100#8 else 0#8) ∧
    displayOnByte C c b = C.DISPON_BASE ||| (if c then 0b10#8 else 0#8) ||| (if b then 0b1#8 else 0#8)) ∧
  ∀ f c b : Bit,
    functionSetByte .default f = (if f then 0x2C#8 else 0x28#8) ∧
    displayOnByte .default c b =
      (if c then (if b then 0x0F#8 else 0x0E#8) else if b then 0x0D#8 else 0x0C#8) ∧
    CommandBytes.default.DISPOFF = 0x08#8 ∧ CommandBytes.default.CLEARDISP = 0x01#8 ∧
    CommandBytes.default.ENTRYMODE = 0x06#8 ∧ CommandBytes.default.LONG_EXEC_CMDS = [0x01#8, 0x02#8, 0x03#8] ∧
    WAKE_NIBBLE = 0x3#4 ∧ MODE4_NIBBLE = 0x2#4

/-- R118, an inference of the spec: for every draw, the gaps of a successful INIT: from `Bind` (at the request's
acceptance, no time having passed) to the first rise, after the three wake pulses, after the clear byte, and after
every other pulse; and every pulse is wide enough. -/
def Obligations.InitGapsMeetTheirFloors : Prop :=
  ∀ (f c b : Bit) (s : State), canRun s → s.ports.BIND_OK = true → s.ports.TIMING_OK = true →
    ∃ u new first rest, runsTo (.init f c b) s (if s.OE then 103 else 102) u ∧ u.trace = s.trace ++ new ∧
      pulseTimes new = first :: rest ∧
      s.now + s.cfg.timing.T_POWERUP_MIN + s.cfg.timing.T_SETUP_MIN ≤ first.1 ∧
      pulsesAtLeast s.cfg.timing.T_EN_HIGH_MIN (first :: rest) = true ∧
      gapsAtLeast
        (([s.cfg.timing.T_WAKE1_MIN, s.cfg.timing.T_WAKE2_MIN, s.cfg.timing.T_WAKE2_MIN]
          ++ List.replicate 6 s.cfg.timing.T_SETTLE_MIN ++ [s.cfg.timing.T_CLEAR_MIN]
          ++ List.replicate 3 s.cfg.timing.T_SETTLE_MIN).map (· + s.cfg.timing.T_SETUP_MIN))
        (first :: rest) = true

/-- R102, R137: with BIND_OK = 0 INIT ends in Faulted with PIN_UNAVAILABLE, with BIND_OK = 1 and TIMING_OK = 0 in
Faulted with TIMING_PREREQ, by way of Initializing; no `Bind`, no pulse, no time; an old binding is released and
nothing is bound after; CFG_* are unchanged. -/
def Obligations.InitFailsIntoFaulted : Prop :=
  ∀ (f c b : Bit) (s : State), canRun s → s.ports.BIND_OK = false ∨ s.ports.TIMING_OK = false →
    ∃ u, runsTo (.init f c b) s (if s.OE then 6 else 5) u ∧
      completedWith (if s.ports.BIND_OK then .timingPrereq else .pinUnavailable) s u ∧
      (∃ t, runsTo (.init f c b) s 2 t ∧ t.DSTATE = .initializing) ∧
      u.DSTATE = .faulted ∧ u.ISTEP = .fault ∧ u.OE = false ∧ u.REL = (s.REL || s.OE) ∧
      u.CFG_F = s.CFG_F ∧ u.CFG_C = s.CFG_C ∧ u.CFG_B = s.CFG_B ∧ u.cfg = s.cfg ∧ u.earlier = s.earlier ∧
      u.now = s.now ∧
      (s.OE = true → linesLow u) ∧
      (s.OE = false → u.RS = s.RS ∧ u.E = s.E ∧ u.D = s.D) ∧
      u.trace = s.trace ++
        (if s.OE then [⟨s.now, true, false, false, 0#4⟩, ⟨s.now, false, false, false, 0#4⟩] else [])

/-! ### All requests -/

/-- R27, R134, R136: every well-formed request, accepted in any state, runs to its end, gets exactly one response,
whose status is the one the priority of R136 gives, and leaves the block idle. -/
def Obligations.EveryRequestCompletesWithItsStatus : Prop :=
  ∀ (i : Instr) (w : ReqWord) (s : State), i.wf = true → encode i = .request w → canRun s →
    ∃ n u, runsTo i s n u ∧ completedWith (requestStatus w s) s u

/-- R135, an inference of the spec: a request that fails emits no pulse: its trace is empty, or the two records of one
`Release`. -/
def Obligations.FailedRequestEmitsNoPulse : Prop :=
  ∀ (i : Instr) (w : ReqWord) (s : State), i.wf = true → encode i = .request w → canRun s →
    requestStatus w s ≠ .ok → ∃ n u new, runsTo i s n u ∧ u.BUSY = false ∧ u.trace = s.trace ++ new ∧
      pulses new = [] ∧
      (new = [] ∨ new = [⟨s.now, true, false, false, 0#4⟩, ⟨s.now, false, false, false, 0#4⟩])

/-- R54, an inference of the spec: any request but INIT adds an even number of pulses to the trace, so the nibble
pairing a completed INIT leaves is kept. -/
def Obligations.RequestsKeepTheNibblePairing : Prop :=
  ∀ (i : Instr) (w : ReqWord) (s : State), i.wf = true → encode i = .request w → opField w ≠ 0b001#3 →
    ControlInv s → canRun s → ∃ n u new, runsTo i s n u ∧ u.BUSY = false ∧ u.trace = s.trace ++ new ∧
      (pulses new).length % 2 = 0

/-- R164, derived by the spec: the minimum durations of DATA, CMD and a successful INIT, from acceptance to the
response, for every parameter set with the orderings of R7 and for every draw. -/
def Obligations.RequestsTakeAtLeastTheirMinimumDuration : Prop :=
  ∀ s : State, canRun s → s.cfg.timing.ordered = true →
    let T := s.cfg.timing
    let nt := T.T_SETUP_MIN + T.T_EN_HIGH_MIN + T.T_SETTLE_MIN
    let long := nt + T.T_SETUP_MIN + T.T_EN_HIGH_MIN + T.T_CLEAR_MIN
    (∀ p, s.DSTATE = .ready → ∃ u, runsTo (.data p) s 13 u ∧ s.now + 2 * nt ≤ u.now) ∧
    (∀ p, s.DSTATE = .ready → ∃ u, runsTo (.cmd p) s 13 u ∧
      s.now + (if p ∈ s.cfg.cmds.LONG_EXEC_CMDS then long else 2 * nt) ≤ u.now) ∧
    (∀ f c b, s.ports.BIND_OK = true → s.ports.TIMING_OK = true →
      ∃ u, runsTo (.init f c b) s (if s.OE then 103 else 102) u ∧
        s.now + T.T_POWERUP_MIN + (T.T_SETUP_MIN + T.T_EN_HIGH_MIN + T.T_WAKE1_MIN)
          + 2 * (T.T_SETUP_MIN + T.T_EN_HIGH_MIN + T.T_WAKE2_MIN) + nt + 4 * (2 * nt) + long ≤ u.now)

/-- R25, R26, R37: a request other than INIT reads neither BIND_OK, TIMING_OK nor the latched configuration: with
other values of them it is accepted into the same program and registers. -/
def Obligations.OnlyInitReadsBindingInputsAndConfiguration : Prop :=
  ∀ (i : Instr) (bindOk timingOk f c b : Bit) (s : State), i.isRequest = true → (∀ x y z, i ≠ .init x y z) →
    let other : State → State := fun t =>
      { t with CFG_F := f, CFG_C := c, CFG_B := b,
               ports := { t.ports with BIND_OK := bindOk, TIMING_OK := timingOk } }
    exec i (other s) = mapNext other (exec i s)

/-! ### Display transfers -/

/-- R109 (that the row's meaning is the whole transfer is the model's choice, log 7): the wake transfer is one pulse
of nibble 0x3 with RS = 0; the wait after its fall is `T_WAKE1_MIN` in step S_WAKE1 and `T_WAKE2_MIN` in S_WAKE2 and
S_WAKE3. Where OE = 0 this is the model's choice (log 17). -/
def Obligations.WakeTransferIsOnePulseOfThree : Prop :=
  ∀ s : State, s.ports.RESET = false → ∃ u, exec .lcdWake s = .next u ∧ onlyLinesAndTime s u ∧
    (s.ISTEP = .wake1 → nibbleSent 0x3#4 false s.cfg.timing.T_WAKE1_MIN s u) ∧
    (s.ISTEP = .wake2 ∨ s.ISTEP = .wake3 → nibbleSent 0x3#4 false s.cfg.timing.T_WAKE2_MIN s u)

/-- R110 (log 7): the mode transfer is one pulse of nibble 0x2 with RS = 0 and the settle floor. Where OE = 0 this is
the model's choice (log 17). -/
def Obligations.Mode4TransferIsOnePulseOfTwo : Prop :=
  ∀ s : State, s.ports.RESET = false → ∃ u, exec .lcdMode4 s = .next u ∧ onlyLinesAndTime s u ∧
    nibbleSent 0x2#4 false 0 s u

/-- R111 to R115 (log 7): the byte transfers of the init sequence, each with RS = 0; only clear has the long wait.
Where OE = 0 this is the model's choice (log 17). -/
def Obligations.InitByteTransfersSendTheirBytes : Prop :=
  ∀ (f c b : Bit) (s : State), s.ports.RESET = false →
    (∃ u, exec (.lcdFuncset f) s = .next u ∧ onlyLinesAndTime s u ∧
      byteSent (functionSetByte s.cfg.cmds f) false 0 s u) ∧
    (∃ u, exec .lcdDispoff s = .next u ∧ onlyLinesAndTime s u ∧ byteSent s.cfg.cmds.DISPOFF false 0 s u) ∧
    (∃ u, exec .lcdClear s = .next u ∧ onlyLinesAndTime s u ∧
      byteSent s.cfg.cmds.CLEARDISP false s.cfg.timing.T_CLEAR_MIN s u) ∧
    (∃ u, exec .lcdEntry s = .next u ∧ onlyLinesAndTime s u ∧ byteSent s.cfg.cmds.ENTRYMODE false 0 s u) ∧
    (∃ u, exec (.lcdDispon c b) s = .next u ∧ onlyLinesAndTime s u ∧
      byteSent (displayOnByte s.cfg.cmds c b) false 0 s u)

/-- R74, R93, R94 (log 7): the byte transfers of CMD and DATA, RS = 0 and RS = 1; only a command byte can be
long-executing. Where OE = 0 this is the model's choice (log 17). -/
def Obligations.CommandAndDataTransfersSendTheirByte : Prop :=
  ∀ (p : Byte) (s : State), s.ports.RESET = false →
    (∃ u, exec (.lcdCmd p) s = .next u ∧ onlyLinesAndTime s u ∧
      byteSent p false (if p ∈ s.cfg.cmds.LONG_EXEC_CMDS then s.cfg.timing.T_CLEAR_MIN else 0) s u) ∧
    (∃ u, exec (.lcdData p) s = .next u ∧ onlyLinesAndTime s u ∧ byteSent p true 0 s u)

/-- Where the program in flight goes on with a display transfer, the sequencer's steps are that transfer: the state
after as many steps as it has micro-operations is `exec` of its constructor, `upc` and the inputs apart (R78, R90,
R93; that a constructor stands for the whole transfer is log 7). Where OE = 0 this is the model's choice (log 17). -/
def Obligations.SequencerStepsAreTheDisplayTransfer : Prop :=
  ∀ (i : Instr) (rest : List MicroOp) (s : State), i.isRequest = false → s.BUSY = true → resetStaysLow s →
    s.PROG.drop s.upc = displayProgram i s ++ rest →
    ∃ u v, Sys2Proof.core.run (displayProgram i s).length s = .next u ∧ exec i s = .next v ∧
      u.upc = s.upc + (displayProgram i s).length ∧
      { u with upc := v.upc, ports := v.ports, script := v.script } = v

/-- R149: while RESET = 1 no transfer is performed (log 7). -/
def Obligations.NoTransferDuringReset : Prop :=
  ∀ (i : Instr) (s : State), i.isRequest = false → s.ports.RESET = true → exec i s = .next s

/-! ### Encoding -/

/-- Every well-formed instruction's encoding decodes to it, a `CMD` or `LCD_CMD` byte with a row of its own to that
row (log 8). -/
def Obligations.DecodeOfEncodeIsTheInstruction : Prop :=
  ∀ i : Instr, i.wf = true → decode (encode i) = .ok i.canon ∧
    ((∀ p, i ≠ .cmd p) → (∀ p, i ≠ .lcdCmd p) → i.canon = i)

/-- What decodes at all is the encoding of what it decodes to, and that is well-formed: no bit is dropped. -/
def Obligations.EncodeOfDecodeIsTheWord : Prop :=
  ∀ (e : Encoded) (i : Instr), decode e = .ok i → encode i = e ∧ i.wf = true

/-- The two names of one word have one effect: exactly, for request words; for display transfers, at the default
command bytes (R76; log 8). -/
def Obligations.NamesOfOneWordHaveOneEffect : Prop :=
  ∀ (i : Instr) (s : State), i.wf = true → i.isRequest = true ∨ s.cfg.cmds = .default →
    exec i.canon s = exec i s

/-- R64, R69: for every word, the decoder's instruction is that of the first row of the table the word matches, and it
is a reserved row exactly where R69 calls the word illegal. The rows' order, the pseudo-requests before CMD, is the
model's choice (log 8). -/
def Obligations.DecoderFollowsTheTable : Prop :=
  ∀ w : ReqWord, rowOf w = some (decodeRequest w).mnemonic ∧
    (illegalWord w = true ↔
      (decodeRequest w).mnemonic ∈ ["ILLEGAL_OP000", "ILLEGAL_INIT_RSVD", "ILLEGAL_RELEASE_PAYLOAD",
        "ILLEGAL_OP101", "ILLEGAL_OP110", "ILLEGAL_OP111"])

/-- R75: the example words. That 0x201 and 0x2C0, the words of CMD 0x01 and CMD 0xC0, get the names of their
pseudo-requests is the model's choice (log 8). -/
def Obligations.ExampleWordsDecodeAsWritten : Prop :=
  decodeRequest 0x100 = .init false false false ∧ decodeRequest 0x107 = .init true true true ∧
    encode (.cmd 0x01) = .request 0x201 ∧ decodeRequest 0x201 = .clear ∧ encode (.cmd 0xC0) = .request 0x2C0 ∧
    decodeRequest 0x2C0 = .setpos1 0 ∧ decodeRequest 0x348 = .data 0x48 ∧ decodeRequest 0x400 = .release

/-- R32, R43, R134: the codes of the outputs and of ISTEP; two names never share one. -/
def Obligations.OutputCodesAreThoseOfTheRules : Prop :=
  ([DisplayState.uninitialized, .initializing, .ready, .faulted].map DisplayState.code = [0b00, 0b01, 0b10, 0b11]) ∧
    ([Status.ok, .notReady, .pinUnavailable, .timingPrereq, .illegalRequest, .none].map Status.code =
      [0b000, 0b001, 0b010, 0b011, 0b100, 0b111]) ∧
    ([InitStep.idle, .bind, .powerup, .wake1, .wake2, .wake3, .mode4, .funcset, .dispoff, .clear, .entry, .dispon,
      .done, .fault].map InitStep.code = [0, 1, 2, 3, 4, 5, 6, 7, 8, 9, 10, 11, 12, 13])

/-! ### Lines -/

/-- R31: a driven line shows its register, data line `i` bit `i` of D (R50); after a release every line is low; before
any binding a line's level is the free value of log 3, whatever the registers hold. -/
def Obligations.LineLevelsFollowTheBinding : Prop :=
  ∀ (k : Nat) (s : State),
    (s.OE = true → s.lineLevel k .registerSelect = .ofBit s.RS ∧ s.lineLevel k .enable = .ofBit s.E ∧
      ∀ j : Fin 4, s.lineLevel k (.data j) = .ofBit (s.D.getLsbD j)) ∧
    (s.OE = false → s.REL = true → ∀ l, s.lineLevel k l = .low) ∧
    (s.OE = false → s.REL = false → ∀ l, s.lineLevel k l = Config.unboundLevel k l)

/-- While a bound block's E is high inside a byte transfer, data line `j` is at bit `4 + j` of the byte in the first
pulse and at bit `j` in the second, register-select at the transfer's RS and the enable line high (R50, R51, R92,
R94). First of any byte transfer after its first `n` micro-operations, E being high after the third and the fourth and
after the ninth and the tenth alone; then of the machine's states while it performs a CMD or DATA. -/
def Obligations.DataLinesCarryTheByteLowBitFirst : Prop :=
  let shown : Byte → Bit → Nat → State → Prop := fun b rs n u =>
    (u.E = true ↔ n = 3 ∨ n = 4 ∨ n = 9 ∨ n = 10) ∧
    (u.E = true → ∀ (k : Nat) (j : Fin 4),
      u.lineLevel k (.data j) = .ofBit (b.getLsbD (if n < 6 then 4 + j.val else j.val)) ∧
      u.lineLevel k .registerSelect = .ofBit rs ∧ u.lineLevel k .enable = .high)
  (∀ (T : Timing) (b : Byte) (rs : Bit) (tpost n : Nat) (s : State), s.OE = true → s.E = false → n ≤ 12 →
    shown b rs n (perform ((byteTransfer T b rs tpost).take n) s)) ∧
  ∀ (i : Instr) (rs : Bit) (p : Byte) (n : Nat) (s : State), (i = .cmd p ∧ rs = false) ∨ (i = .data p ∧ rs = true) →
    ControlInv s → canRun s → s.DSTATE = .ready → n ≤ 12 → ∃ u, runsTo i s n u ∧ shown p rs n u

/-! ### Invariants -/

/-- The control invariant holds after reset. -/
def Obligations.ControlInvariantHoldsAtReset : Prop := ControlInv State.reset

/-- R33 to R36, R42, R80, R90, R94, R99, R107, whatever the host does: every step keeps the control invariant, from
every state that has it. -/
def Obligations.EveryStepKeepsTheControlInvariant : Prop :=
  ∀ s t : State, ControlInv s → step s = .next t → ControlInv t

/-- A state with the control invariant always has a next state: the sequencer is never left without a micro-operation
(R42, R78). -/
def Obligations.ControlInvariantStatesAlwaysStep : Prop := ∀ s : State, ControlInv s → ∃ t, step s = .next t

/-- R33: out of reset, a step either leaves DSTATE as it is or makes one of the listed transitions; in particular
Ready never goes to Faulted. -/
def Obligations.DisplayStateMovesOnlyAsListed : Prop :=
  ∀ s t : State, ControlInv s → s.ports.RESET = false → step s = .next t →
    (t.DSTATE = s.DSTATE ∨ legalTransition s.DSTATE t.DSTATE = true) ∧
    ¬ (s.DSTATE = .ready ∧ t.DSTATE = .faulted)

/-- R34, an inference of the spec: after every step, with BUSY = 0, DSTATE is Uninitialized, Ready or Faulted, and
Initializing is an INIT in flight. -/
def Obligations.InitializingMeansAnInitInFlight : Prop :=
  ∀ s t : State, ControlInv s → step s = .next t →
    (t.BUSY = false → t.DSTATE = .uninitialized ∨ t.DSTATE = .ready ∨ t.DSTATE = .faulted) ∧
    (t.DSTATE = .initializing → t.BUSY = true ∧ opField t.CUR = 0b001#3)

/-- R99, R94, R107, inferences of the spec: E rises only while the block is bound, in Ready for a CMD (with RS = 0) or
a DATA (with RS = 1), or in Initializing for an INIT (with RS = 0). -/
def Obligations.EnableRisesOnlyInReadyOrInsideInit : Prop :=
  ∀ s t : State, ControlInv s → step s = .next t → s.E = false → t.E = true →
    s.BUSY = true ∧ s.OE = true ∧
    ((s.DSTATE = .ready ∧ (opField s.CUR = 0b010#3 ∧ s.RS = false ∨ opField s.CUR = 0b011#3 ∧ s.RS = true)) ∨
      (s.DSTATE = .initializing ∧ opField s.CUR = 0b001#3 ∧ s.RS = false))

/-- The timing invariant holds after reset. -/
def Obligations.TimingInvariantHoldsAtReset : Prop := TimingInv State.reset

/-- R91, R154, R155, R156, for every request stream, every parameter set and every draw: every step keeps the timing
invariant, so in the whole trace every enable pulse has its set-up, its width and its settle interval. -/
def Obligations.EveryStepKeepsTheTimingInvariant : Prop :=
  ∀ s t : State, ControlInv s → TimingInv s → step s = .next t → TimingInv t

/-! ### The host software and the notation -/

/-- R128, R129, R133 (1), (2), from every client state: a write keeps the first 32 bytes with a single trailing line
terminator replaced by a space, in Ready or not; in Ready it sends clear and the text and moves the cursor with them,
otherwise it fails with NotReady and sends nothing. A read from the start then returns the text kept, a read at or
past its end nothing, and again so; a read leaves the text alone, and sends a repaint or nothing (I6). -/
def Obligations.WriteThenReadReturnsTheTextKept : Prop :=
  ∀ (ready : Bit) (bytes : List Byte) (c : Client),
    let text := normalizeTerminator (bytes.take 32)
    let w := clientWrite ready bytes c
    let d := w.result.client
    w.accepted = min bytes.length 32 ∧ (w.truncated = true ↔ 32 < bytes.length) ∧ d.buffer = text ∧
    (ready = true → w.result.error = none ∧
      w.result.actions = .request .clear :: (printFrom false 0 text).1 ∧ (d.line, d.col) = (printFrom false 0 text).2) ∧
    (ready = false → w.result.error = some .notReady ∧ w.result.actions = [] ∧ d.line = c.line ∧ d.col = c.col) ∧
    ∀ (ready' repaints : Bit) (offset n : Nat),
      (clientRead ready' repaints 0 bytes.length d).bytes = text ∧
      (w.accepted ≤ offset → (clientRead ready' repaints offset n d).bytes = []) ∧
      (clientRead ready' repaints offset n d).client.buffer = text ∧
      (clientRead ready' repaints offset n d).actions =
        if ready' && repaints then .request .clear :: (printFrom false 0 text).1 else []

/-- R125, R133 (3): for either line, a column from 0 to 15 sends the one cursor command of that column and moves the
cursor; any other column fails with OutOfBounds, sends nothing and leaves the cursor. -/
def Obligations.SetCursorChecksItsColumn : Prop :=
  ∀ (line : Bit) (column : Int) (c : Client),
    (∀ n : Nat, column = n → n < 16 → ∃ i,
      clientSetCursor true line column c = ⟨none, [.request i], { c with line := line, col := n }⟩ ∧
      encode i = .request (requestWord 0b010 ((if line then 0xC0#8 else 0x80#8) + BitVec.ofNat 8 n))) ∧
    (column < 0 ∨ 16 ≤ column → clientSetCursor true line column c = ⟨some .outOfBounds, [], c⟩)

/-- R126: a print from a cursor of the display sends the characters in order up to the end of line 1, and no more; a
print that starts on line 0 has one cursor command to line 1 if it gets past column 15, otherwise none. -/
def Obligations.PrintSendsWhatFitsInOrder : Prop :=
  ∀ (line : Bit) (col : Nat) (text : List Byte), col ≤ 16 →
    let room := if line then 16 - col else 32 - col
    dataBytesOf (printFrom line col text).1 = text.take room ∧
    (requestsOf (printFrom line col text).1).length =
      (text.take room).length + (if line = false ∧ 16 - col < text.length then 1 else 0) ∧
    (line = false → 16 - col < text.length → (requestsOf (printFrom line col text).1)[16 - col]? = some (.setpos1 0))

/-- R76: each pseudo-request assembles to the word of its expansion; SETPOS off the display is refused. -/
def Obligations.AssemblerExpandsThePseudoRequests : Prop :=
  assembleWords .clear = some [0x201] ∧ assembleWords .home = some [0x202] ∧
    assembleWords .shiftl = some [0x218] ∧ assembleWords .shiftr = some [0x21C] ∧
    (∀ col : BitVec 4, assembleWords (.setpos 0 col.toNat) = some [0x280#11 + col.setWidth 11] ∧
      assembleWords (.setpos 1 col.toNat) = some [0x2C0#11 + col.setWidth 11]) ∧
    (∀ l c : Nat, 2 ≤ l ∨ 16 ≤ c → assembleWords (.setpos l c) = none) ∧
    (∀ text : List Char, text.all printable = true →
      assembleLine (.puts text) = some (text.map fun ch => .data (charByte ch)))

/-- R123, R130, R131, R132: the errors the host software returns are the statuses the block answers. Reinitialize
presents its INIT and fails exactly where INIT does, and puts the cursor at (0,0) where it succeeds; clear and print
fail exactly where the block's CMD and DATA would. That the text stays, and the cursor after a failure, is the model's
choice, the cursor after a success the model's deduction from R133 (4) (log 10). -/
def Obligations.HostErrorsAreTheBlocksStatuses : Prop :=
  ∀ (f c b ready repaints : Bit) (stepTime : Nat) (cl : Client) (s : State), (ready = true ↔ s.DSTATE = .ready) →
    (∃ w, encode (.init f c b) = .request w ∧
      clientControl ready repaints stepTime (.reinitialize f c b s.ports.BIND_OK s.ports.TIMING_OK) cl =
        ⟨statusError (requestStatus w s), [.presentInit f c b s.ports.BIND_OK s.ports.TIMING_OK],
          if requestStatus w s = .ok then { cl with line := false, col := 0 } else cl⟩) ∧
    (clientClear ready cl).error = statusError (requestStatus 0x201 s) ∧
    ∀ (ch : Byte) (text : List Byte),
      (clientPrint ready text cl).error = statusError (requestStatus (requestWord 0b011 ch) s)

/-- R133 (4), R124, R126, W8: after `clear()`, from whatever cursor and text, a print issues the same requests and ends
at the same cursor as on a freshly initialized display, opened or reinitialized from whatever cursor and text; and they
are those of the text from (0,0). That INIT leaves the cursor there is the model's deduction (log 10). -/
def Obligations.PrintAfterClearIsPrintAfterInit : Prop :=
  ∀ (f c b repaints : Bit) (stepTime : Nat) (text : List Byte) (x y : Client),
    let cleared := clientPrint true text (clientClear true x).client
    let opened := clientPrint true text (clientOpen f c b true true y).client
    cleared.actions = opened.actions ∧ cleared.actions = (printFrom false 0 text).1 ∧
    (cleared.client.line, cleared.client.col) = (opened.client.line, opened.client.col) ∧
    ∀ ready, clientControl ready repaints stepTime (.reinitialize f c b true true) y = clientOpen f c b true true y
end

