-- ==== Sys2Proof/Laws/Client.lean ====
section
/-! SUPPORT. What each operation of the host software comes to, said once. -/
namespace Sys2Proof.Machine

@[simp] theorem whenReady_true (c : Client) (r : ClientResult) : c.whenReady true r = r := rfl
@[simp] theorem whenReady_false (c : Client) (r : ClientResult) : c.whenReady false r = c.failed .notReady := rfl

@[simp] theorem did_andThen (c : Client) (acts : List ClientAction) (next : Client → ClientResult) :
    (c.did acts).andThen next = { next c with actions := acts ++ (next c).actions } := rfl
@[simp] theorem failed_andThen (c : Client) (e : ClientError) (next : Client → ClientResult) :
    (c.failed e).andThen next = c.failed e := rfl

@[simp] theorem home_line (c : Client) : c.home.line = false := rfl
@[simp] theorem home_col (c : Client) : c.home.col = 0 := rfl
@[simp] theorem home_buffer (c : Client) : c.home.buffer = c.buffer := rfl

@[simp] theorem normalizeTerminator_length (text : List Byte) :
    (normalizeTerminator text).length = text.length := by
  unfold normalizeTerminator
  split
  · next h => cases text with
    | nil => simp at h
    | cons a rest => simp
  · rfl

/-- R124, R126, in Ready. -/
theorem clientRepaint_ready (c : Client) :
    clientRepaint true c =
      ⟨none, .request .clear :: (printFrom false 0 c.buffer).1,
        { line := (printFrom false 0 c.buffer).2.1, col := (printFrom false 0 c.buffer).2.2, buffer := c.buffer }⟩ :=
  rfl

/-- R123. -/
theorem clientRepaint_notReady (c : Client) : clientRepaint false c = ⟨some .notReady, [], c⟩ := rfl

/-- No repaint changes the text. -/
@[simp] theorem clientRepaint_buffer (ready : Bit) (c : Client) : (clientRepaint ready c).client.buffer = c.buffer := by
  cases ready <;> rfl

/-- A print from a cursor of the display ends at one (R122). -/
theorem printFrom_col (line : Bit) (col : Nat) (text : List Byte) (h : col ≤ 16) :
    (printFrom line col text).2.2 ≤ 16 := by
  induction text generalizing line col with
  | nil => exact h
  | cons ch rest ih =>
    simp only [printFrom]
    split
    · split
      · exact h
      · exact ih true 1 (by omega)
    · exact ih line (col + 1) (by omega)

/-- R122, R128: what a write leaves is a client state. -/
theorem clientWrite_wf (ready : Bit) (bytes : List Byte) (c : Client) (h : c.wf = true) :
    (clientWrite ready bytes c).result.client.wf = true := by
  have hb : (normalizeTerminator (acceptedText bytes)).length ≤ 32 := by simp [acceptedText]
  have hp := printFrom_col false 0 (normalizeTerminator (acceptedText bytes)) (by omega)
  cases ready <;> simp_all [clientWrite, clientRepaint_ready, clientRepaint_notReady, Client.wf]

end Sys2Proof.Machine
end

