-- ==== Sys2Proof/Laws/Encoding.lean ====
section
/-! SUPPORT. The fields of a request word, read back. -/
namespace Sys2Proof

/-- The bits of a request word (R63). -/
theorem requestWord_getLsbD (op : BitVec 3) (p : Byte) (i : Nat) :
    (requestWord op p).getLsbD i = if i < 8 then p.getLsbD i else op.getLsbD (i - 8) :=
  BitVec.getLsbD_append

@[simp] theorem opField_requestWord (op : BitVec 3) (p : Byte) : opField (requestWord op p) = op := by
  apply BitVec.eq_of_getLsbD_eq
  intro i hi
  have : ¬ (8 + i < 8) := by omega
  simp only [opField, BitVec.getLsbD_extractLsb', requestWord_getLsbD, this, if_false, hi, decide_true,
    Bool.true_and, Nat.add_sub_cancel_left]

@[simp] theorem payloadField_requestWord (op : BitVec 3) (p : Byte) : payloadField (requestWord op p) = p := by
  apply BitVec.eq_of_getLsbD_eq
  intro i hi
  simp only [payloadField, BitVec.getLsbD_extractLsb', requestWord_getLsbD, hi, decide_true, Bool.true_and,
    Nat.zero_add, if_true]

/-- A request word is its two fields (R63). -/
theorem requestWord_fields (w : ReqWord) : requestWord (opField w) (payloadField w) = w := by
  apply BitVec.eq_of_getLsbD_eq
  intro i hi
  simp only [requestWord_getLsbD, opField, payloadField, BitVec.getLsbD_extractLsb']
  split
  · simp [*]
  · have h1 : i - 8 < 3 := by omega
    have h2 : 8 + (i - 8) = i := by omega
    simp [h1, h2]

end Sys2Proof
end

