-- ==== Sys2Proof/Laws/State.lean ====
section
/-! SUPPORT. One lemma for each field of State under each update. -/
namespace Sys2Proof.Machine

/-! `record` -/

@[simp] theorem record_cfg (s : State) : (record s).cfg = s.cfg := rfl
@[simp] theorem record_DSTATE (s : State) : (record s).DSTATE = s.DSTATE := rfl
@[simp] theorem record_OE (s : State) : (record s).OE = s.OE := rfl
@[simp] theorem record_REL (s : State) : (record s).REL = s.REL := rfl
@[simp] theorem record_RS (s : State) : (record s).RS = s.RS := rfl
@[simp] theorem record_E (s : State) : (record s).E = s.E := rfl
@[simp] theorem record_D (s : State) : (record s).D = s.D := rfl
@[simp] theorem record_CFG_F (s : State) : (record s).CFG_F = s.CFG_F := rfl
@[simp] theorem record_CFG_C (s : State) : (record s).CFG_C = s.CFG_C := rfl
@[simp] theorem record_CFG_B (s : State) : (record s).CFG_B = s.CFG_B := rfl
@[simp] theorem record_STATUS (s : State) : (record s).STATUS = s.STATUS := rfl
@[simp] theorem record_BUSY (s : State) : (record s).BUSY = s.BUSY := rfl
@[simp] theorem record_CUR (s : State) : (record s).CUR = s.CUR := rfl
@[simp] theorem record_PROG (s : State) : (record s).PROG = s.PROG := rfl
@[simp] theorem record_upc (s : State) : (record s).upc = s.upc := rfl
@[simp] theorem record_ISTEP (s : State) : (record s).ISTEP = s.ISTEP := rfl
@[simp] theorem record_now (s : State) : (record s).now = s.now := rfl
@[simp] theorem record_trace (s : State) : (record s).trace = s.trace ++ [⟨s.now, s.OE, s.RS, s.E, s.D⟩] := rfl
@[simp] theorem record_responses (s : State) : (record s).responses = s.responses := rfl
@[simp] theorem record_earlier (s : State) : (record s).earlier = s.earlier := rfl
@[simp] theorem record_draws (s : State) : (record s).draws = s.draws := rfl
@[simp] theorem record_ports (s : State) : (record s).ports = s.ports := rfl
@[simp] theorem record_script (s : State) : (record s).script = s.script := rfl

/-! `opDrive` -/

@[simp] theorem opDrive_cfg (rs : Bit) (d : Nibble) (s : State) : (opDrive rs d s).cfg = s.cfg := rfl
@[simp] theorem opDrive_DSTATE (rs : Bit) (d : Nibble) (s : State) : (opDrive rs d s).DSTATE = s.DSTATE := rfl
@[simp] theorem opDrive_OE (rs : Bit) (d : Nibble) (s : State) : (opDrive rs d s).OE = s.OE := rfl
@[simp] theorem opDrive_REL (rs : Bit) (d : Nibble) (s : State) : (opDrive rs d s).REL = s.REL := rfl
@[simp] theorem opDrive_RS (rs : Bit) (d : Nibble) (s : State) : (opDrive rs d s).RS = rs := rfl
@[simp] theorem opDrive_E (rs : Bit) (d : Nibble) (s : State) : (opDrive rs d s).E = s.E := rfl
@[simp] theorem opDrive_D (rs : Bit) (d : Nibble) (s : State) : (opDrive rs d s).D = d := rfl
@[simp] theorem opDrive_CFG_F (rs : Bit) (d : Nibble) (s : State) : (opDrive rs d s).CFG_F = s.CFG_F := rfl
@[simp] theorem opDrive_CFG_C (rs : Bit) (d : Nibble) (s : State) : (opDrive rs d s).CFG_C = s.CFG_C := rfl
@[simp] theorem opDrive_CFG_B (rs : Bit) (d : Nibble) (s : State) : (opDrive rs d s).CFG_B = s.CFG_B := rfl
@[simp] theorem opDrive_STATUS (rs : Bit) (d : Nibble) (s : State) : (opDrive rs d s).STATUS = s.STATUS := rfl
@[simp] theorem opDrive_BUSY (rs : Bit) (d : Nibble) (s : State) : (opDrive rs d s).BUSY = s.BUSY := rfl
@[simp] theorem opDrive_CUR (rs : Bit) (d : Nibble) (s : State) : (opDrive rs d s).CUR = s.CUR := rfl
@[simp] theorem opDrive_PROG (rs : Bit) (d : Nibble) (s : State) : (opDrive rs d s).PROG = s.PROG := rfl
@[simp] theorem opDrive_upc (rs : Bit) (d : Nibble) (s : State) : (opDrive rs d s).upc = s.upc := rfl
@[simp] theorem opDrive_ISTEP (rs : Bit) (d : Nibble) (s : State) : (opDrive rs d s).ISTEP = s.ISTEP := rfl
@[simp] theorem opDrive_now (rs : Bit) (d : Nibble) (s : State) : (opDrive rs d s).now = s.now := rfl
@[simp] theorem opDrive_trace (rs : Bit) (d : Nibble) (s : State) : (opDrive rs d s).trace = s.trace ++ [⟨s.now, s.OE, rs, s.E, d⟩] := rfl
@[simp] theorem opDrive_responses (rs : Bit) (d : Nibble) (s : State) : (opDrive rs d s).responses = s.responses := rfl
@[simp] theorem opDrive_earlier (rs : Bit) (d : Nibble) (s : State) : (opDrive rs d s).earlier = s.earlier := rfl
@[simp] theorem opDrive_draws (rs : Bit) (d : Nibble) (s : State) : (opDrive rs d s).draws = s.draws := rfl
@[simp] theorem opDrive_ports (rs : Bit) (d : Nibble) (s : State) : (opDrive rs d s).ports = s.ports := rfl
@[simp] theorem opDrive_script (rs : Bit) (d : Nibble) (s : State) : (opDrive rs d s).script = s.script := rfl

/-! `opEnHigh` -/

@[simp] theorem opEnHigh_cfg (s : State) : (opEnHigh s).cfg = s.cfg := rfl
@[simp] theorem opEnHigh_DSTATE (s : State) : (opEnHigh s).DSTATE = s.DSTATE := rfl
@[simp] theorem opEnHigh_OE (s : State) : (opEnHigh s).OE = s.OE := rfl
@[simp] theorem opEnHigh_REL (s : State) : (opEnHigh s).REL = s.REL := rfl
@[simp] theorem opEnHigh_RS (s : State) : (opEnHigh s).RS = s.RS := rfl
@[simp] theorem opEnHigh_E (s : State) : (opEnHigh s).E = true := rfl
@[simp] theorem opEnHigh_D (s : State) : (opEnHigh s).D = s.D := rfl
@[simp] theorem opEnHigh_CFG_F (s : State) : (opEnHigh s).CFG_F = s.CFG_F := rfl
@[simp] theorem opEnHigh_CFG_C (s : State) : (opEnHigh s).CFG_C = s.CFG_C := rfl
@[simp] theorem opEnHigh_CFG_B (s : State) : (opEnHigh s).CFG_B = s.CFG_B := rfl
@[simp] theorem opEnHigh_STATUS (s : State) : (opEnHigh s).STATUS = s.STATUS := rfl
@[simp] theorem opEnHigh_BUSY (s : State) : (opEnHigh s).BUSY = s.BUSY := rfl
@[simp] theorem opEnHigh_CUR (s : State) : (opEnHigh s).CUR = s.CUR := rfl
@[simp] theorem opEnHigh_PROG (s : State) : (opEnHigh s).PROG = s.PROG := rfl
@[simp] theorem opEnHigh_upc (s : State) : (opEnHigh s).upc = s.upc := rfl
@[simp] theorem opEnHigh_ISTEP (s : State) : (opEnHigh s).ISTEP = s.ISTEP := rfl
@[simp] theorem opEnHigh_now (s : State) : (opEnHigh s).now = s.now := rfl
@[simp] theorem opEnHigh_trace (s : State) : (opEnHigh s).trace = s.trace ++ [⟨s.now, s.OE, s.RS, true, s.D⟩] := rfl
@[simp] theorem opEnHigh_responses (s : State) : (opEnHigh s).responses = s.responses := rfl
@[simp] theorem opEnHigh_earlier (s : State) : (opEnHigh s).earlier = s.earlier := rfl
@[simp] theorem opEnHigh_draws (s : State) : (opEnHigh s).draws = s.draws := rfl
@[simp] theorem opEnHigh_ports (s : State) : (opEnHigh s).ports = s.ports := rfl
@[simp] theorem opEnHigh_script (s : State) : (opEnHigh s).script = s.script := rfl

/-! `opEnLow` -/

@[simp] theorem opEnLow_cfg (s : State) : (opEnLow s).cfg = s.cfg := rfl
@[simp] theorem opEnLow_DSTATE (s : State) : (opEnLow s).DSTATE = s.DSTATE := rfl
@[simp] theorem opEnLow_OE (s : State) : (opEnLow s).OE = s.OE := rfl
@[simp] theorem opEnLow_REL (s : State) : (opEnLow s).REL = s.REL := rfl
@[simp] theorem opEnLow_RS (s : State) : (opEnLow s).RS = s.RS := rfl
@[simp] theorem opEnLow_E (s : State) : (opEnLow s).E = false := rfl
@[simp] theorem opEnLow_D (s : State) : (opEnLow s).D = s.D := rfl
@[simp] theorem opEnLow_CFG_F (s : State) : (opEnLow s).CFG_F = s.CFG_F := rfl
@[simp] theorem opEnLow_CFG_C (s : State) : (opEnLow s).CFG_C = s.CFG_C := rfl
@[simp] theorem opEnLow_CFG_B (s : State) : (opEnLow s).CFG_B = s.CFG_B := rfl
@[simp] theorem opEnLow_STATUS (s : State) : (opEnLow s).STATUS = s.STATUS := rfl
@[simp] theorem opEnLow_BUSY (s : State) : (opEnLow s).BUSY = s.BUSY := rfl
@[simp] theorem opEnLow_CUR (s : State) : (opEnLow s).CUR = s.CUR := rfl
@[simp] theorem opEnLow_PROG (s : State) : (opEnLow s).PROG = s.PROG := rfl
@[simp] theorem opEnLow_upc (s : State) : (opEnLow s).upc = s.upc := rfl
@[simp] theorem opEnLow_ISTEP (s : State) : (opEnLow s).ISTEP = s.ISTEP := rfl
@[simp] theorem opEnLow_now (s : State) : (opEnLow s).now = s.now := rfl
@[simp] theorem opEnLow_trace (s : State) : (opEnLow s).trace = s.trace ++ [⟨s.now, s.OE, s.RS, false, s.D⟩] := rfl
@[simp] theorem opEnLow_responses (s : State) : (opEnLow s).responses = s.responses := rfl
@[simp] theorem opEnLow_earlier (s : State) : (opEnLow s).earlier = s.earlier := rfl
@[simp] theorem opEnLow_draws (s : State) : (opEnLow s).draws = s.draws := rfl
@[simp] theorem opEnLow_ports (s : State) : (opEnLow s).ports = s.ports := rfl
@[simp] theorem opEnLow_script (s : State) : (opEnLow s).script = s.script := rfl

/-! `opWait` -/

@[simp] theorem opWait_cfg (tmin k : Nat) (s : State) : (opWait tmin k s).cfg = s.cfg := rfl
@[simp] theorem opWait_DSTATE (tmin k : Nat) (s : State) : (opWait tmin k s).DSTATE = s.DSTATE := rfl
@[simp] theorem opWait_OE (tmin k : Nat) (s : State) : (opWait tmin k s).OE = s.OE := rfl
@[simp] theorem opWait_REL (tmin k : Nat) (s : State) : (opWait tmin k s).REL = s.REL := rfl
@[simp] theorem opWait_RS (tmin k : Nat) (s : State) : (opWait tmin k s).RS = s.RS := rfl
@[simp] theorem opWait_E (tmin k : Nat) (s : State) : (opWait tmin k s).E = s.E := rfl
@[simp] theorem opWait_D (tmin k : Nat) (s : State) : (opWait tmin k s).D = s.D := rfl
@[simp] theorem opWait_CFG_F (tmin k : Nat) (s : State) : (opWait tmin k s).CFG_F = s.CFG_F := rfl
@[simp] theorem opWait_CFG_C (tmin k : Nat) (s : State) : (opWait tmin k s).CFG_C = s.CFG_C := rfl
@[simp] theorem opWait_CFG_B (tmin k : Nat) (s : State) : (opWait tmin k s).CFG_B = s.CFG_B := rfl
@[simp] theorem opWait_STATUS (tmin k : Nat) (s : State) : (opWait tmin k s).STATUS = s.STATUS := rfl
@[simp] theorem opWait_BUSY (tmin k : Nat) (s : State) : (opWait tmin k s).BUSY = s.BUSY := rfl
@[simp] theorem opWait_CUR (tmin k : Nat) (s : State) : (opWait tmin k s).CUR = s.CUR := rfl
@[simp] theorem opWait_PROG (tmin k : Nat) (s : State) : (opWait tmin k s).PROG = s.PROG := rfl
@[simp] theorem opWait_upc (tmin k : Nat) (s : State) : (opWait tmin k s).upc = s.upc := rfl
@[simp] theorem opWait_ISTEP (tmin k : Nat) (s : State) : (opWait tmin k s).ISTEP = s.ISTEP := rfl
@[simp] theorem opWait_now (tmin k : Nat) (s : State) : (opWait tmin k s).now = s.now + (tmin + k) := rfl
@[simp] theorem opWait_trace (tmin k : Nat) (s : State) : (opWait tmin k s).trace = s.trace := rfl
@[simp] theorem opWait_responses (tmin k : Nat) (s : State) : (opWait tmin k s).responses = s.responses := rfl
@[simp] theorem opWait_earlier (tmin k : Nat) (s : State) : (opWait tmin k s).earlier = s.earlier := rfl
@[simp] theorem opWait_draws (tmin k : Nat) (s : State) : (opWait tmin k s).draws = s.draws + 1 := rfl
@[simp] theorem opWait_ports (tmin k : Nat) (s : State) : (opWait tmin k s).ports = s.ports := rfl
@[simp] theorem opWait_script (tmin k : Nat) (s : State) : (opWait tmin k s).script = s.script := rfl

/-! `opBind` -/

@[simp] theorem opBind_cfg (s : State) : (opBind s).cfg = s.cfg := rfl
@[simp] theorem opBind_DSTATE (s : State) : (opBind s).DSTATE = s.DSTATE := rfl
@[simp] theorem opBind_OE (s : State) : (opBind s).OE = true := rfl
@[simp] theorem opBind_REL (s : State) : (opBind s).REL = s.REL := rfl
@[simp] theorem opBind_RS (s : State) : (opBind s).RS = false := rfl
@[simp] theorem opBind_E (s : State) : (opBind s).E = false := rfl
@[simp] theorem opBind_D (s : State) : (opBind s).D = 0#4 := rfl
@[simp] theorem opBind_CFG_F (s : State) : (opBind s).CFG_F = s.CFG_F := rfl
@[simp] theorem opBind_CFG_C (s : State) : (opBind s).CFG_C = s.CFG_C := rfl
@[simp] theorem opBind_CFG_B (s : State) : (opBind s).CFG_B = s.CFG_B := rfl
@[simp] theorem opBind_STATUS (s : State) : (opBind s).STATUS = s.STATUS := rfl
@[simp] theorem opBind_BUSY (s : State) : (opBind s).BUSY = s.BUSY := rfl
@[simp] theorem opBind_CUR (s : State) : (opBind s).CUR = s.CUR := rfl
@[simp] theorem opBind_PROG (s : State) : (opBind s).PROG = s.PROG := rfl
@[simp] theorem opBind_upc (s : State) : (opBind s).upc = s.upc := rfl
@[simp] theorem opBind_ISTEP (s : State) : (opBind s).ISTEP = s.ISTEP := rfl
@[simp] theorem opBind_now (s : State) : (opBind s).now = s.now := rfl
@[simp] theorem opBind_trace (s : State) : (opBind s).trace = s.trace ++ [⟨s.now, true, false, false, 0#4⟩] := rfl
@[simp] theorem opBind_responses (s : State) : (opBind s).responses = s.responses := rfl
@[simp] theorem opBind_earlier (s : State) : (opBind s).earlier = s.earlier := rfl
@[simp] theorem opBind_draws (s : State) : (opBind s).draws = s.draws := rfl
@[simp] theorem opBind_ports (s : State) : (opBind s).ports = s.ports := rfl
@[simp] theorem opBind_script (s : State) : (opBind s).script = s.script := rfl

/-! `opRelease` -/

@[simp] theorem opRelease_cfg (s : State) : (opRelease s).cfg = s.cfg := rfl
@[simp] theorem opRelease_DSTATE (s : State) : (opRelease s).DSTATE = s.DSTATE := rfl
@[simp] theorem opRelease_OE (s : State) : (opRelease s).OE = false := rfl
@[simp] theorem opRelease_REL (s : State) : (opRelease s).REL = true := rfl
@[simp] theorem opRelease_RS (s : State) : (opRelease s).RS = false := rfl
@[simp] theorem opRelease_E (s : State) : (opRelease s).E = false := rfl
@[simp] theorem opRelease_D (s : State) : (opRelease s).D = 0#4 := rfl
@[simp] theorem opRelease_CFG_F (s : State) : (opRelease s).CFG_F = s.CFG_F := rfl
@[simp] theorem opRelease_CFG_C (s : State) : (opRelease s).CFG_C = s.CFG_C := rfl
@[simp] theorem opRelease_CFG_B (s : State) : (opRelease s).CFG_B = s.CFG_B := rfl
@[simp] theorem opRelease_STATUS (s : State) : (opRelease s).STATUS = s.STATUS := rfl
@[simp] theorem opRelease_BUSY (s : State) : (opRelease s).BUSY = s.BUSY := rfl
@[simp] theorem opRelease_CUR (s : State) : (opRelease s).CUR = s.CUR := rfl
@[simp] theorem opRelease_PROG (s : State) : (opRelease s).PROG = s.PROG := rfl
@[simp] theorem opRelease_upc (s : State) : (opRelease s).upc = s.upc := rfl
@[simp] theorem opRelease_ISTEP (s : State) : (opRelease s).ISTEP = s.ISTEP := rfl
@[simp] theorem opRelease_now (s : State) : (opRelease s).now = s.now := rfl
@[simp] theorem opRelease_trace (s : State) : (opRelease s).trace = s.trace ++ [⟨s.now, true, false, false, 0#4⟩] ++ [⟨s.now, false, false, false, 0#4⟩] := rfl
@[simp] theorem opRelease_responses (s : State) : (opRelease s).responses = s.responses := rfl
@[simp] theorem opRelease_earlier (s : State) : (opRelease s).earlier = s.earlier := rfl
@[simp] theorem opRelease_draws (s : State) : (opRelease s).draws = s.draws := rfl
@[simp] theorem opRelease_ports (s : State) : (opRelease s).ports = s.ports := rfl
@[simp] theorem opRelease_script (s : State) : (opRelease s).script = s.script := rfl

/-! `opSetState` -/

@[simp] theorem opSetState_cfg (d : DisplayState) (s : State) : (opSetState d s).cfg = s.cfg := rfl
@[simp] theorem opSetState_DSTATE (d : DisplayState) (s : State) : (opSetState d s).DSTATE = d := rfl
@[simp] theorem opSetState_OE (d : DisplayState) (s : State) : (opSetState d s).OE = s.OE := rfl
@[simp] theorem opSetState_REL (d : DisplayState) (s : State) : (opSetState d s).REL = s.REL := rfl
@[simp] theorem opSetState_RS (d : DisplayState) (s : State) : (opSetState d s).RS = s.RS := rfl
@[simp] theorem opSetState_E (d : DisplayState) (s : State) : (opSetState d s).E = s.E := rfl
@[simp] theorem opSetState_D (d : DisplayState) (s : State) : (opSetState d s).D = s.D := rfl
@[simp] theorem opSetState_CFG_F (d : DisplayState) (s : State) : (opSetState d s).CFG_F = s.CFG_F := rfl
@[simp] theorem opSetState_CFG_C (d : DisplayState) (s : State) : (opSetState d s).CFG_C = s.CFG_C := rfl
@[simp] theorem opSetState_CFG_B (d : DisplayState) (s : State) : (opSetState d s).CFG_B = s.CFG_B := rfl
@[simp] theorem opSetState_STATUS (d : DisplayState) (s : State) : (opSetState d s).STATUS = s.STATUS := rfl
@[simp] theorem opSetState_BUSY (d : DisplayState) (s : State) : (opSetState d s).BUSY = s.BUSY := rfl
@[simp] theorem opSetState_CUR (d : DisplayState) (s : State) : (opSetState d s).CUR = s.CUR := rfl
@[simp] theorem opSetState_PROG (d : DisplayState) (s : State) : (opSetState d s).PROG = s.PROG := rfl
@[simp] theorem opSetState_upc (d : DisplayState) (s : State) : (opSetState d s).upc = s.upc := rfl
@[simp] theorem opSetState_ISTEP (d : DisplayState) (s : State) : (opSetState d s).ISTEP = s.ISTEP := rfl
@[simp] theorem opSetState_now (d : DisplayState) (s : State) : (opSetState d s).now = s.now := rfl
@[simp] theorem opSetState_trace (d : DisplayState) (s : State) : (opSetState d s).trace = s.trace := rfl
@[simp] theorem opSetState_responses (d : DisplayState) (s : State) : (opSetState d s).responses = s.responses := rfl
@[simp] theorem opSetState_earlier (d : DisplayState) (s : State) : (opSetState d s).earlier = s.earlier := rfl
@[simp] theorem opSetState_draws (d : DisplayState) (s : State) : (opSetState d s).draws = s.draws := rfl
@[simp] theorem opSetState_ports (d : DisplayState) (s : State) : (opSetState d s).ports = s.ports := rfl
@[simp] theorem opSetState_script (d : DisplayState) (s : State) : (opSetState d s).script = s.script := rfl

/-! `opStep` -/

@[simp] theorem opStep_cfg (i : InitStep) (s : State) : (opStep i s).cfg = s.cfg := rfl
@[simp] theorem opStep_DSTATE (i : InitStep) (s : State) : (opStep i s).DSTATE = s.DSTATE := rfl
@[simp] theorem opStep_OE (i : InitStep) (s : State) : (opStep i s).OE = s.OE := rfl
@[simp] theorem opStep_REL (i : InitStep) (s : State) : (opStep i s).REL = s.REL := rfl
@[simp] theorem opStep_RS (i : InitStep) (s : State) : (opStep i s).RS = s.RS := rfl
@[simp] theorem opStep_E (i : InitStep) (s : State) : (opStep i s).E = s.E := rfl
@[simp] theorem opStep_D (i : InitStep) (s : State) : (opStep i s).D = s.D := rfl
@[simp] theorem opStep_CFG_F (i : InitStep) (s : State) : (opStep i s).CFG_F = s.CFG_F := rfl
@[simp] theorem opStep_CFG_C (i : InitStep) (s : State) : (opStep i s).CFG_C = s.CFG_C := rfl
@[simp] theorem opStep_CFG_B (i : InitStep) (s : State) : (opStep i s).CFG_B = s.CFG_B := rfl
@[simp] theorem opStep_STATUS (i : InitStep) (s : State) : (opStep i s).STATUS = s.STATUS := rfl
@[simp] theorem opStep_BUSY (i : InitStep) (s : State) : (opStep i s).BUSY = s.BUSY := rfl
@[simp] theorem opStep_CUR (i : InitStep) (s : State) : (opStep i s).CUR = s.CUR := rfl
@[simp] theorem opStep_PROG (i : InitStep) (s : State) : (opStep i s).PROG = s.PROG := rfl
@[simp] theorem opStep_upc (i : InitStep) (s : State) : (opStep i s).upc = s.upc := rfl
@[simp] theorem opStep_ISTEP (i : InitStep) (s : State) : (opStep i s).ISTEP = i := rfl
@[simp] theorem opStep_now (i : InitStep) (s : State) : (opStep i s).now = s.now := rfl
@[simp] theorem opStep_trace (i : InitStep) (s : State) : (opStep i s).trace = s.trace := rfl
@[simp] theorem opStep_responses (i : InitStep) (s : State) : (opStep i s).responses = s.responses := rfl
@[simp] theorem opStep_earlier (i : InitStep) (s : State) : (opStep i s).earlier = s.earlier := rfl
@[simp] theorem opStep_draws (i : InitStep) (s : State) : (opStep i s).draws = s.draws := rfl
@[simp] theorem opStep_ports (i : InitStep) (s : State) : (opStep i s).ports = s.ports := rfl
@[simp] theorem opStep_script (i : InitStep) (s : State) : (opStep i s).script = s.script := rfl

/-! `opLatch` -/

@[simp] theorem opLatch_cfg (f c b : Bit) (s : State) : (opLatch f c b s).cfg = s.cfg := rfl
@[simp] theorem opLatch_DSTATE (f c b : Bit) (s : State) : (opLatch f c b s).DSTATE = s.DSTATE := rfl
@[simp] theorem opLatch_OE (f c b : Bit) (s : State) : (opLatch f c b s).OE = s.OE := rfl
@[simp] theorem opLatch_REL (f c b : Bit) (s : State) : (opLatch f c b s).REL = s.REL := rfl
@[simp] theorem opLatch_RS (f c b : Bit) (s : State) : (opLatch f c b s).RS = s.RS := rfl
@[simp] theorem opLatch_E (f c b : Bit) (s : State) : (opLatch f c b s).E = s.E := rfl
@[simp] theorem opLatch_D (f c b : Bit) (s : State) : (opLatch f c b s).D = s.D := rfl
@[simp] theorem opLatch_CFG_F (f c b : Bit) (s : State) : (opLatch f c b s).CFG_F = f := rfl
@[simp] theorem opLatch_CFG_C (f c b : Bit) (s : State) : (opLatch f c b s).CFG_C = c := rfl
@[simp] theorem opLatch_CFG_B (f c b : Bit) (s : State) : (opLatch f c b s).CFG_B = b := rfl
@[simp] theorem opLatch_STATUS (f c b : Bit) (s : State) : (opLatch f c b s).STATUS = s.STATUS := rfl
@[simp] theorem opLatch_BUSY (f c b : Bit) (s : State) : (opLatch f c b s).BUSY = s.BUSY := rfl
@[simp] theorem opLatch_CUR (f c b : Bit) (s : State) : (opLatch f c b s).CUR = s.CUR := rfl
@[simp] theorem opLatch_PROG (f c b : Bit) (s : State) : (opLatch f c b s).PROG = s.PROG := rfl
@[simp] theorem opLatch_upc (f c b : Bit) (s : State) : (opLatch f c b s).upc = s.upc := rfl
@[simp] theorem opLatch_ISTEP (f c b : Bit) (s : State) : (opLatch f c b s).ISTEP = s.ISTEP := rfl
@[simp] theorem opLatch_now (f c b : Bit) (s : State) : (opLatch f c b s).now = s.now := rfl
@[simp] theorem opLatch_trace (f c b : Bit) (s : State) : (opLatch f c b s).trace = s.trace := rfl
@[simp] theorem opLatch_responses (f c b : Bit) (s : State) : (opLatch f c b s).responses = s.responses := rfl
@[simp] theorem opLatch_earlier (f c b : Bit) (s : State) : (opLatch f c b s).earlier = s.earlier := rfl
@[simp] theorem opLatch_draws (f c b : Bit) (s : State) : (opLatch f c b s).draws = s.draws := rfl
@[simp] theorem opLatch_ports (f c b : Bit) (s : State) : (opLatch f c b s).ports = s.ports := rfl
@[simp] theorem opLatch_script (f c b : Bit) (s : State) : (opLatch f c b s).script = s.script := rfl

/-! `opComplete` -/

@[simp] theorem opComplete_cfg (st : Status) (s : State) : (opComplete st s).cfg = s.cfg := rfl
@[simp] theorem opComplete_DSTATE (st : Status) (s : State) : (opComplete st s).DSTATE = s.DSTATE := rfl
@[simp] theorem opComplete_OE (st : Status) (s : State) : (opComplete st s).OE = s.OE := rfl
@[simp] theorem opComplete_REL (st : Status) (s : State) : (opComplete st s).REL = s.REL := rfl
@[simp] theorem opComplete_RS (st : Status) (s : State) : (opComplete st s).RS = s.RS := rfl
@[simp] theorem opComplete_E (st : Status) (s : State) : (opComplete st s).E = s.E := rfl
@[simp] theorem opComplete_D (st : Status) (s : State) : (opComplete st s).D = s.D := rfl
@[simp] theorem opComplete_CFG_F (st : Status) (s : State) : (opComplete st s).CFG_F = s.CFG_F := rfl
@[simp] theorem opComplete_CFG_C (st : Status) (s : State) : (opComplete st s).CFG_C = s.CFG_C := rfl
@[simp] theorem opComplete_CFG_B (st : Status) (s : State) : (opComplete st s).CFG_B = s.CFG_B := rfl
@[simp] theorem opComplete_STATUS (st : Status) (s : State) : (opComplete st s).STATUS = st := rfl
@[simp] theorem opComplete_BUSY (st : Status) (s : State) : (opComplete st s).BUSY = false := rfl
@[simp] theorem opComplete_CUR (st : Status) (s : State) : (opComplete st s).CUR = s.CUR := rfl
@[simp] theorem opComplete_PROG (st : Status) (s : State) : (opComplete st s).PROG = s.PROG := rfl
@[simp] theorem opComplete_upc (st : Status) (s : State) : (opComplete st s).upc = s.upc := rfl
@[simp] theorem opComplete_ISTEP (st : Status) (s : State) : (opComplete st s).ISTEP = s.ISTEP := rfl
@[simp] theorem opComplete_now (st : Status) (s : State) : (opComplete st s).now = s.now := rfl
@[simp] theorem opComplete_trace (st : Status) (s : State) : (opComplete st s).trace = s.trace := rfl
@[simp] theorem opComplete_responses (st : Status) (s : State) : (opComplete st s).responses = s.responses ++ [⟨s.now, st⟩] := rfl
@[simp] theorem opComplete_earlier (st : Status) (s : State) : (opComplete st s).earlier = s.earlier := rfl
@[simp] theorem opComplete_draws (st : Status) (s : State) : (opComplete st s).draws = s.draws := rfl
@[simp] theorem opComplete_ports (st : Status) (s : State) : (opComplete st s).ports = s.ports := rfl
@[simp] theorem opComplete_script (st : Status) (s : State) : (opComplete st s).script = s.script := rfl

/-! `nextUpc` -/

@[simp] theorem nextUpc_cfg (s : State) : (nextUpc s).cfg = s.cfg := rfl
@[simp] theorem nextUpc_DSTATE (s : State) : (nextUpc s).DSTATE = s.DSTATE := rfl
@[simp] theorem nextUpc_OE (s : State) : (nextUpc s).OE = s.OE := rfl
@[simp] theorem nextUpc_REL (s : State) : (nextUpc s).REL = s.REL := rfl
@[simp] theorem nextUpc_RS (s : State) : (nextUpc s).RS = s.RS := rfl
@[simp] theorem nextUpc_E (s : State) : (nextUpc s).E = s.E := rfl
@[simp] theorem nextUpc_D (s : State) : (nextUpc s).D = s.D := rfl
@[simp] theorem nextUpc_CFG_F (s : State) : (nextUpc s).CFG_F = s.CFG_F := rfl
@[simp] theorem nextUpc_CFG_C (s : State) : (nextUpc s).CFG_C = s.CFG_C := rfl
@[simp] theorem nextUpc_CFG_B (s : State) : (nextUpc s).CFG_B = s.CFG_B := rfl
@[simp] theorem nextUpc_STATUS (s : State) : (nextUpc s).STATUS = s.STATUS := rfl
@[simp] theorem nextUpc_BUSY (s : State) : (nextUpc s).BUSY = s.BUSY := rfl
@[simp] theorem nextUpc_CUR (s : State) : (nextUpc s).CUR = s.CUR := rfl
@[simp] theorem nextUpc_PROG (s : State) : (nextUpc s).PROG = s.PROG := rfl
@[simp] theorem nextUpc_upc (s : State) : (nextUpc s).upc = s.upc + 1 := rfl
@[simp] theorem nextUpc_ISTEP (s : State) : (nextUpc s).ISTEP = s.ISTEP := rfl
@[simp] theorem nextUpc_now (s : State) : (nextUpc s).now = s.now := rfl
@[simp] theorem nextUpc_trace (s : State) : (nextUpc s).trace = s.trace := rfl
@[simp] theorem nextUpc_responses (s : State) : (nextUpc s).responses = s.responses := rfl
@[simp] theorem nextUpc_earlier (s : State) : (nextUpc s).earlier = s.earlier := rfl
@[simp] theorem nextUpc_draws (s : State) : (nextUpc s).draws = s.draws := rfl
@[simp] theorem nextUpc_ports (s : State) : (nextUpc s).ports = s.ports := rfl
@[simp] theorem nextUpc_script (s : State) : (nextUpc s).script = s.script := rfl

/-! `accepted` -/

@[simp] theorem accepted_cfg (w : ReqWord) (prog : List MicroOp) (s : State) : (accepted w prog s).cfg = s.cfg := rfl
@[simp] theorem accepted_DSTATE (w : ReqWord) (prog : List MicroOp) (s : State) : (accepted w prog s).DSTATE = s.DSTATE := rfl
@[simp] theorem accepted_OE (w : ReqWord) (prog : List MicroOp) (s : State) : (accepted w prog s).OE = s.OE := rfl
@[simp] theorem accepted_REL (w : ReqWord) (prog : List MicroOp) (s : State) : (accepted w prog s).REL = s.REL := rfl
@[simp] theorem accepted_RS (w : ReqWord) (prog : List MicroOp) (s : State) : (accepted w prog s).RS = s.RS := rfl
@[simp] theorem accepted_E (w : ReqWord) (prog : List MicroOp) (s : State) : (accepted w prog s).E = s.E := rfl
@[simp] theorem accepted_D (w : ReqWord) (prog : List MicroOp) (s : State) : (accepted w prog s).D = s.D := rfl
@[simp] theorem accepted_CFG_F (w : ReqWord) (prog : List MicroOp) (s : State) : (accepted w prog s).CFG_F = s.CFG_F := rfl
@[simp] theorem accepted_CFG_C (w : ReqWord) (prog : List MicroOp) (s : State) : (accepted w prog s).CFG_C = s.CFG_C := rfl
@[simp] theorem accepted_CFG_B (w : ReqWord) (prog : List MicroOp) (s : State) : (accepted w prog s).CFG_B = s.CFG_B := rfl
@[simp] theorem accepted_STATUS (w : ReqWord) (prog : List MicroOp) (s : State) : (accepted w prog s).STATUS = s.STATUS := rfl
@[simp] theorem accepted_BUSY (w : ReqWord) (prog : List MicroOp) (s : State) : (accepted w prog s).BUSY = true := rfl
@[simp] theorem accepted_CUR (w : ReqWord) (prog : List MicroOp) (s : State) : (accepted w prog s).CUR = w := rfl
@[simp] theorem accepted_PROG (w : ReqWord) (prog : List MicroOp) (s : State) : (accepted w prog s).PROG = prog := rfl
@[simp] theorem accepted_upc (w : ReqWord) (prog : List MicroOp) (s : State) : (accepted w prog s).upc = 0 := rfl
@[simp] theorem accepted_ISTEP (w : ReqWord) (prog : List MicroOp) (s : State) : (accepted w prog s).ISTEP = s.ISTEP := rfl
@[simp] theorem accepted_now (w : ReqWord) (prog : List MicroOp) (s : State) : (accepted w prog s).now = s.now := rfl
@[simp] theorem accepted_trace (w : ReqWord) (prog : List MicroOp) (s : State) : (accepted w prog s).trace = s.trace := rfl
@[simp] theorem accepted_responses (w : ReqWord) (prog : List MicroOp) (s : State) : (accepted w prog s).responses = s.responses := rfl
@[simp] theorem accepted_earlier (w : ReqWord) (prog : List MicroOp) (s : State) : (accepted w prog s).earlier = s.earlier := rfl
@[simp] theorem accepted_draws (w : ReqWord) (prog : List MicroOp) (s : State) : (accepted w prog s).draws = s.draws := rfl
@[simp] theorem accepted_ports (w : ReqWord) (prog : List MicroOp) (s : State) : (accepted w prog s).ports = s.ports := rfl
@[simp] theorem accepted_script (w : ReqWord) (prog : List MicroOp) (s : State) : (accepted w prog s).script = s.script := rfl

/-! `resetBlock` -/

@[simp] theorem resetBlock_cfg (s : State) : (resetBlock s).cfg = s.cfg := rfl
@[simp] theorem resetBlock_DSTATE (s : State) : (resetBlock s).DSTATE = .uninitialized := rfl
@[simp] theorem resetBlock_OE (s : State) : (resetBlock s).OE = false := rfl
@[simp] theorem resetBlock_REL (s : State) : (resetBlock s).REL = false := rfl
@[simp] theorem resetBlock_RS (s : State) : (resetBlock s).RS = false := rfl
@[simp] theorem resetBlock_E (s : State) : (resetBlock s).E = false := rfl
@[simp] theorem resetBlock_D (s : State) : (resetBlock s).D = 0#4 := rfl
@[simp] theorem resetBlock_CFG_F (s : State) : (resetBlock s).CFG_F = false := rfl
@[simp] theorem resetBlock_CFG_C (s : State) : (resetBlock s).CFG_C = false := rfl
@[simp] theorem resetBlock_CFG_B (s : State) : (resetBlock s).CFG_B = false := rfl
@[simp] theorem resetBlock_STATUS (s : State) : (resetBlock s).STATUS = .none := rfl
@[simp] theorem resetBlock_BUSY (s : State) : (resetBlock s).BUSY = false := rfl
@[simp] theorem resetBlock_CUR (s : State) : (resetBlock s).CUR = 0#11 := rfl
@[simp] theorem resetBlock_PROG (s : State) : (resetBlock s).PROG = [] := rfl
@[simp] theorem resetBlock_upc (s : State) : (resetBlock s).upc = 0 := rfl
@[simp] theorem resetBlock_ISTEP (s : State) : (resetBlock s).ISTEP = .idle := rfl
@[simp] theorem resetBlock_now (s : State) : (resetBlock s).now = 0 := rfl
@[simp] theorem resetBlock_trace (s : State) : (resetBlock s).trace = [] := rfl
@[simp] theorem resetBlock_responses (s : State) : (resetBlock s).responses = [] := rfl
@[simp] theorem resetBlock_earlier (s : State) : (resetBlock s).earlier = closeObservation s := rfl
@[simp] theorem resetBlock_draws (s : State) : (resetBlock s).draws = s.draws := rfl
@[simp] theorem resetBlock_ports (s : State) : (resetBlock s).ports = s.ports := rfl
@[simp] theorem resetBlock_script (s : State) : (resetBlock s).script = s.script := rfl

/-! `nextInputs` changes the inputs only -/

@[simp] theorem nextInputs_cfg (taken : Bool) (s : State) : (nextInputs taken s).cfg = s.cfg := by
  unfold nextInputs; split <;> first | rfl | (split <;> rfl)
@[simp] theorem nextInputs_DSTATE (taken : Bool) (s : State) : (nextInputs taken s).DSTATE = s.DSTATE := by
  unfold nextInputs; split <;> first | rfl | (split <;> rfl)
@[simp] theorem nextInputs_OE (taken : Bool) (s : State) : (nextInputs taken s).OE = s.OE := by
  unfold nextInputs; split <;> first | rfl | (split <;> rfl)
@[simp] theorem nextInputs_REL (taken : Bool) (s : State) : (nextInputs taken s).REL = s.REL := by
  unfold nextInputs; split <;> first | rfl | (split <;> rfl)
@[simp] theorem nextInputs_RS (taken : Bool) (s : State) : (nextInputs taken s).RS = s.RS := by
  unfold nextInputs; split <;> first | rfl | (split <;> rfl)
@[simp] theorem nextInputs_E (taken : Bool) (s : State) : (nextInputs taken s).E = s.E := by
  unfold nextInputs; split <;> first | rfl | (split <;> rfl)
@[simp] theorem nextInputs_D (taken : Bool) (s : State) : (nextInputs taken s).D = s.D := by
  unfold nextInputs; split <;> first | rfl | (split <;> rfl)
@[simp] theorem nextInputs_CFG_F (taken : Bool) (s : State) : (nextInputs taken s).CFG_F = s.CFG_F := by
  unfold nextInputs; split <;> first | rfl | (split <;> rfl)
@[simp] theorem nextInputs_CFG_C (taken : Bool) (s : State) : (nextInputs taken s).CFG_C = s.CFG_C := by
  unfold nextInputs; split <;> first | rfl | (split <;> rfl)
@[simp] theorem nextInputs_CFG_B (taken : Bool) (s : State) : (nextInputs taken s).CFG_B = s.CFG_B := by
  unfold nextInputs; split <;> first | rfl | (split <;> rfl)
@[simp] theorem nextInputs_STATUS (taken : Bool) (s : State) : (nextInputs taken s).STATUS = s.STATUS := by
  unfold nextInputs; split <;> first | rfl | (split <;> rfl)
@[simp] theorem nextInputs_BUSY (taken : Bool) (s : State) : (nextInputs taken s).BUSY = s.BUSY := by
  unfold nextInputs; split <;> first | rfl | (split <;> rfl)
@[simp] theorem nextInputs_CUR (taken : Bool) (s : State) : (nextInputs taken s).CUR = s.CUR := by
  unfold nextInputs; split <;> first | rfl | (split <;> rfl)
@[simp] theorem nextInputs_PROG (taken : Bool) (s : State) : (nextInputs taken s).PROG = s.PROG := by
  unfold nextInputs; split <;> first | rfl | (split <;> rfl)
@[simp] theorem nextInputs_upc (taken : Bool) (s : State) : (nextInputs taken s).upc = s.upc := by
  unfold nextInputs; split <;> first | rfl | (split <;> rfl)
@[simp] theorem nextInputs_ISTEP (taken : Bool) (s : State) : (nextInputs taken s).ISTEP = s.ISTEP := by
  unfold nextInputs; split <;> first | rfl | (split <;> rfl)
@[simp] theorem nextInputs_now (taken : Bool) (s : State) : (nextInputs taken s).now = s.now := by
  unfold nextInputs; split <;> first | rfl | (split <;> rfl)
@[simp] theorem nextInputs_trace (taken : Bool) (s : State) : (nextInputs taken s).trace = s.trace := by
  unfold nextInputs; split <;> first | rfl | (split <;> rfl)
@[simp] theorem nextInputs_responses (taken : Bool) (s : State) : (nextInputs taken s).responses = s.responses := by
  unfold nextInputs; split <;> first | rfl | (split <;> rfl)
@[simp] theorem nextInputs_earlier (taken : Bool) (s : State) : (nextInputs taken s).earlier = s.earlier := by
  unfold nextInputs; split <;> first | rfl | (split <;> rfl)
@[simp] theorem nextInputs_draws (taken : Bool) (s : State) : (nextInputs taken s).draws = s.draws := by
  unfold nextInputs; split <;> first | rfl | (split <;> rfl)

end Sys2Proof.Machine
end

