-- ==== Sys2Proof/Laws/Ops.lean ====
section
/-! SUPPORT. What each shared operation can do, said once: the micro-operations with their draws, lists of them, and
the transfers. -/
namespace Sys2Proof.Machine

/-! ### One micro-operation -/

@[simp] theorem microOpDrawn_drive (rs : Bit) (d : Nibble) (s : State) :
    microOpDrawn (.drive rs d) s = opDrive rs d s := rfl
@[simp] theorem microOpDrawn_enHigh (s : State) : microOpDrawn .enHigh s = opEnHigh s := rfl
@[simp] theorem microOpDrawn_enLow (s : State) : microOpDrawn .enLow s = opEnLow s := rfl
@[simp] theorem microOpDrawn_wait (tmin : Nat) (s : State) :
    microOpDrawn (.wait tmin) s = opWait tmin (Config.waitSlack s.draws) s := rfl
@[simp] theorem microOpDrawn_bind (s : State) : microOpDrawn .bind s = opBind s := rfl
@[simp] theorem microOpDrawn_release (s : State) : microOpDrawn .release s = opRelease s := rfl
@[simp] theorem microOpDrawn_setState (d : DisplayState) (s : State) :
    microOpDrawn (.setState d) s = opSetState d s := rfl
@[simp] theorem microOpDrawn_step (i : InitStep) (s : State) : microOpDrawn (.step i) s = opStep i s := rfl
@[simp] theorem microOpDrawn_latch (f c b : Bit) (s : State) :
    microOpDrawn (.latch f c b) s = opLatch f c b s := rfl
@[simp] theorem microOpDrawn_complete (st : Status) (s : State) :
    microOpDrawn (.complete st) s = opComplete st s := rfl

/-- What no micro-operation writes: the parameters, the request registers, the earlier observations, the inputs. -/
structure KeepsRequest (s u : State) : Prop where
  cfg : u.cfg = s.cfg
  CUR : u.CUR = s.CUR
  PROG : u.PROG = s.PROG
  upc : u.upc = s.upc
  earlier : u.earlier = s.earlier
  ports : u.ports = s.ports
  script : u.script = s.script

theorem KeepsRequest.refl (s : State) : KeepsRequest s s := ⟨rfl, rfl, rfl, rfl, rfl, rfl, rfl⟩

theorem KeepsRequest.trans {s u v : State} (h : KeepsRequest s u) (k : KeepsRequest u v) : KeepsRequest s v :=
  ⟨k.cfg.trans h.cfg, k.CUR.trans h.CUR, k.PROG.trans h.PROG, k.upc.trans h.upc, k.earlier.trans h.earlier,
    k.ports.trans h.ports, k.script.trans h.script⟩

theorem microOpDrawn_keepsRequest (op : MicroOp) (s : State) : KeepsRequest s (microOpDrawn op s) := by
  cases op <;> exact ⟨rfl, rfl, rfl, rfl, rfl, rfl, rfl⟩

/-- Only `Complete` writes BUSY. -/
theorem microOpDrawn_BUSY {op : MicroOp} (h : ∀ st, op ≠ .complete st) (s : State) :
    (microOpDrawn op s).BUSY = s.BUSY := by
  cases op <;> first | rfl | exact absurd rfl (h _)

/-- The micro-operations neither read nor write what a step adds around them. -/
theorem microOpDrawn_nextUpc (op : MicroOp) (s : State) :
    microOpDrawn op (nextUpc s) = nextUpc (microOpDrawn op s) := by
  cases op <;> rfl

theorem nextInputs_script (taken : Bool) (s : State) : (nextInputs taken s).script = s.script.tail := by
  unfold nextInputs
  split
  next h => simp [h]
  next h => split <;> simp [h]

theorem microOpDrawn_nextInputs (op : MicroOp) (taken : Bool) (s : State) :
    microOpDrawn op (nextInputs taken s) = nextInputs taken (microOpDrawn op s) := by
  have hs := (microOpDrawn_keepsRequest op s).script
  cases h : s.script with
  | nil =>
    rw [h] at hs
    cases taken <;> simp only [nextInputs, h, hs] <;> cases op <;> rfl
  | cons p ps =>
    rw [h] at hs
    simp only [nextInputs, h, hs]
    cases op <;> rfl

/-! ### Lists of them -/

@[simp] theorem perform_nil (s : State) : perform [] s = s := rfl
@[simp] theorem perform_cons (op : MicroOp) (ops : List MicroOp) (s : State) :
    perform (op :: ops) s = perform ops (microOpDrawn op s) := rfl

@[simp] theorem perform_append (xs ys : List MicroOp) (s : State) :
    perform (xs ++ ys) s = perform ys (perform xs s) := by
  induction xs generalizing s with
  | nil => rfl
  | cons op xs ih => exact ih _

theorem perform_keepsRequest (ops : List MicroOp) (s : State) : KeepsRequest s (perform ops s) := by
  induction ops generalizing s with
  | nil => exact .refl s
  | cons op ops ih => exact (microOpDrawn_keepsRequest op s).trans (ih _)

theorem perform_nextUpc (ops : List MicroOp) (s : State) : perform ops (nextUpc s) = nextUpc (perform ops s) := by
  induction ops generalizing s with
  | nil => rfl
  | cons op ops ih => simp only [perform_cons, microOpDrawn_nextUpc, ih]

theorem perform_nextInputs (ops : List MicroOp) (taken : Bool) (s : State) :
    perform ops (nextInputs taken s) = nextInputs taken (perform ops s) := by
  induction ops generalizing s with
  | nil => rfl
  | cons op ops ih => simp only [perform_cons, microOpDrawn_nextInputs, ih]

/-! ### Transfers -/

/-- What a transfer writes: the line registers, the trace, the time and the count of draws (R90: "a pure timed side
effect"). -/
def OnlyLinesAndTime (s u : State) : Prop :=
  u = { s with RS := u.RS, E := u.E, D := u.D, trace := u.trace, now := u.now, draws := u.draws }

theorem OnlyLinesAndTime.refl (s : State) : OnlyLinesAndTime s s := rfl

theorem OnlyLinesAndTime.trans {s u v : State} (h : OnlyLinesAndTime s u) (k : OnlyLinesAndTime u v) :
    OnlyLinesAndTime s v := by
  unfold OnlyLinesAndTime at *
  rw [h] at k
  exact k

theorem nibbleTransfer_onlyLinesAndTime (T : Timing) (v : Nibble) (rs : Bit) (tpost : Nat) (s : State) :
    OnlyLinesAndTime s (perform (nibbleTransfer T v rs tpost) s) := rfl

theorem byteTransfer_onlyLinesAndTime (T : Timing) (b : Byte) (rs : Bit) (tpost : Nat) (s : State) :
    OnlyLinesAndTime s (perform (byteTransfer T b rs tpost) s) := by
  rw [byteTransfer, perform_append]
  exact (nibbleTransfer_onlyLinesAndTime ..).trans (nibbleTransfer_onlyLinesAndTime ..)

section nibble
variable (T : Timing) (v : Nibble) (rs : Bit) (tpost : Nat) (s : State)

@[simp] theorem nibbleTransfer_RS : (perform (nibbleTransfer T v rs tpost) s).RS = rs := rfl
@[simp] theorem nibbleTransfer_E : (perform (nibbleTransfer T v rs tpost) s).E = false := rfl
@[simp] theorem nibbleTransfer_D : (perform (nibbleTransfer T v rs tpost) s).D = v := rfl
@[simp] theorem nibbleTransfer_OE : (perform (nibbleTransfer T v rs tpost) s).OE = s.OE := rfl
@[simp] theorem nibbleTransfer_draws : (perform (nibbleTransfer T v rs tpost) s).draws = s.draws + 3 := rfl

/-- R90: when the transfer ends, with the draws of its three waits. -/
theorem nibbleTransfer_now :
    (perform (nibbleTransfer T v rs tpost) s).now =
      s.now + T.T_SETUP_MIN + Config.waitSlack s.draws + T.T_EN_HIGH_MIN + Config.waitSlack (s.draws + 1)
        + max T.T_SETTLE_MIN tpost + Config.waitSlack (s.draws + 2) := by
  simp [nibbleTransfer, Nat.add_assoc]

/-- R90: the three records of the transfer. -/
theorem nibbleTransfer_trace :
    (perform (nibbleTransfer T v rs tpost) s).trace = s.trace ++
      [⟨s.now, s.OE, rs, s.E, v⟩,
       ⟨s.now + T.T_SETUP_MIN + Config.waitSlack s.draws, s.OE, rs, true, v⟩,
       ⟨s.now + T.T_SETUP_MIN + Config.waitSlack s.draws + T.T_EN_HIGH_MIN + Config.waitSlack (s.draws + 1),
          s.OE, rs, false, v⟩] := by
  simp [nibbleTransfer, Nat.add_assoc]

end nibble

/-- No transfer completes a request. -/
theorem nibbleTransfer_noComplete (T : Timing) (v : Nibble) (rs : Bit) (tpost : Nat) :
    ∀ op ∈ nibbleTransfer T v rs tpost, ∀ st, op ≠ .complete st := by
  simp [nibbleTransfer]

theorem byteTransfer_noComplete (T : Timing) (b : Byte) (rs : Bit) (tpost : Nat) :
    ∀ op ∈ byteTransfer T b rs tpost, ∀ st, op ≠ .complete st := by
  simp [byteTransfer, nibbleTransfer]

end Sys2Proof.Machine
end

