-- ==== Sys2Proof/Laws/PerInstr.lean ====
section
/-! SUPPORT. Facts about the instruction as syntax, one lemma for each constructor. -/
namespace Sys2Proof.Laws.CanonKeepsWord

/-- The decoder's name for an instruction is an instruction with the same word, and is its own name (log 8). -/
def Statement (i : Instr) : Prop :=
  i.wf = true → i.canon.wf = true ∧ encode i.canon = encode i ∧ i.canon.canon = i.canon

/-- The name of a command byte, over every byte. -/
theorem command_byte (p : Byte) :
    (decodeCommand p).wf = true ∧ encode (decodeCommand p) = encode (.cmd p) ∧
      (decodeCommand p).canon = decodeCommand p := by
  revert p; decide +kernel

/-- The name of a transferred command byte, over every byte. -/
theorem transfer_byte (p : Byte) :
    (decodeByte false p).wf = true ∧ encode (decodeByte false p) = encode (.lcdCmd p) ∧
      (decodeByte false p).canon = decodeByte false p := by
  revert p; decide +kernel

theorem init (f c b : Bit) : Statement (.init f c b) := fun h => ⟨h, rfl, rfl⟩
theorem cmd (p : Byte) : Statement (.cmd p) := fun _ => command_byte p
theorem data (p : Byte) : Statement (.data p) := fun h => ⟨h, rfl, rfl⟩
theorem release : Statement .release := fun h => ⟨h, rfl, rfl⟩
theorem illegalOp000 (p : Byte) : Statement (.illegalOp000 p) := fun h => ⟨h, rfl, rfl⟩
theorem illegalInitRsvd (p : Byte) : Statement (.illegalInitRsvd p) := fun h => ⟨h, rfl, rfl⟩
theorem illegalReleasePayload (p : Byte) : Statement (.illegalReleasePayload p) := fun h => ⟨h, rfl, rfl⟩
theorem illegalOp101 (p : Byte) : Statement (.illegalOp101 p) := fun h => ⟨h, rfl, rfl⟩
theorem illegalOp110 (p : Byte) : Statement (.illegalOp110 p) := fun h => ⟨h, rfl, rfl⟩
theorem illegalOp111 (p : Byte) : Statement (.illegalOp111 p) := fun h => ⟨h, rfl, rfl⟩
theorem clear : Statement .clear := fun h => ⟨h, rfl, rfl⟩
theorem home : Statement .home := fun h => ⟨h, rfl, rfl⟩
theorem setpos0 (col : BitVec 4) : Statement (.setpos0 col) := fun h => ⟨h, rfl, rfl⟩
theorem setpos1 (col : BitVec 4) : Statement (.setpos1 col) := fun h => ⟨h, rfl, rfl⟩
theorem shiftl : Statement .shiftl := fun h => ⟨h, rfl, rfl⟩
theorem shiftr : Statement .shiftr := fun h => ⟨h, rfl, rfl⟩
theorem lcdWake : Statement .lcdWake := fun h => ⟨h, rfl, rfl⟩
theorem lcdMode4 : Statement .lcdMode4 := fun h => ⟨h, rfl, rfl⟩
theorem lcdFuncset (f : Bit) : Statement (.lcdFuncset f) := fun h => ⟨h, rfl, rfl⟩
theorem lcdDispoff : Statement .lcdDispoff := fun h => ⟨h, rfl, rfl⟩
theorem lcdClear : Statement .lcdClear := fun h => ⟨h, rfl, rfl⟩
theorem lcdEntry : Statement .lcdEntry := fun h => ⟨h, rfl, rfl⟩
theorem lcdDispon (c b : Bit) : Statement (.lcdDispon c b) := fun h => ⟨h, rfl, rfl⟩
theorem lcdCmd (p : Byte) : Statement (.lcdCmd p) := fun _ => transfer_byte p
theorem lcdData (p : Byte) : Statement (.lcdData p) := fun h => ⟨h, rfl, rfl⟩

end Sys2Proof.Laws.CanonKeepsWord
end

