-- ==== Sys2Proof/Laws/Run.lean ====
section
/-! SUPPORT. What a step can do, and what a run of the sequencer over a program comes to. -/
namespace Sys2Proof.Machine

open Sys2Proof.Safety

@[simp] theorem mapNext_next (f : State → State) (s : State) : mapNext f (.next s) = .next (f s) := rfl

/-- Every instruction answers a next state. -/
theorem exec_answers (i : Instr) (s : State) : ∃ t, exec i s = .next t := by
  cases i <;> exact ⟨_, rfl⟩

/-- A step that answers a next state is one of four: reset, a micro-operation, an acceptance, waiting. -/
theorem step_cases {s t : State} (h : step s = .next t) :
    (s.ports.RESET = true ∧ t = nextInputs false (resetBlock s)) ∨
    (s.ports.RESET = false ∧ s.BUSY = true ∧ ∃ op, s.PROG[s.upc]? = some op ∧
      t = nextInputs false (nextUpc (microOpDrawn op s))) ∨
    (s.ports.RESET = false ∧ s.BUSY = false ∧ s.ports.REQ_VALID = true ∧
      ∃ u, exec (decodeRequest s.ports.REQ) s = .next u ∧ t = nextInputs true u) ∨
    (s.ports.RESET = false ∧ s.BUSY = false ∧ s.ports.REQ_VALID = false ∧ t = nextInputs false s) := by
  simp only [step] at h
  split at h
  next hr => exact .inl ⟨hr, by injection h with h; exact h.symm⟩
  next hr =>
    have hr : s.ports.RESET = false := by simpa using hr
    split at h
    next hb =>
      simp only [sequencerStep] at h
      split at h
      next op hop => exact .inr (.inl ⟨hr, hb, op, hop, by injection h with h; exact h.symm⟩)
      next => cases h
    next hb =>
      have hb : s.BUSY = false := by simpa using hb
      split at h
      next hv =>
        obtain ⟨u, hu⟩ := exec_answers (decodeRequest s.ports.REQ) s
        rw [hu] at h
        exact .inr (.inr (.inl ⟨hr, hb, hv, u, hu, by injection h with h; exact h.symm⟩))
      next hv => exact .inr (.inr (.inr ⟨hr, hb, by simpa using hv, by injection h with h; exact h.symm⟩))

/-- R78. -/
theorem step_microOp {s : State} {op : MicroOp} (hr : s.ports.RESET = false) (hb : s.BUSY = true)
    (hop : s.PROG[s.upc]? = some op) : step s = .next (nextInputs false (nextUpc (microOpDrawn op s))) := by
  simp [step, hr, hb, sequencerStep, hop]

/-! ### Inputs over several steps -/

/-- What `n` steps of the sequencer add around the micro-operations: `upc` and the inputs. -/
def advance : Nat → State → State
  | 0, s => s
  | n + 1, s => advance n (nextInputs false (nextUpc s))

/-- `advance` changes `upc` and the inputs only. -/
theorem advance_eq (n : Nat) (s : State) :
    advance n s = { s with upc := s.upc + n, ports := (advance n s).ports, script := (advance n s).script } := by
  induction n generalizing s with
  | zero => rfl
  | succ n ih =>
    rw [advance, ih]
    have h : nextInputs false (nextUpc s) = { s with
        upc := s.upc + 1, ports := (nextInputs false (nextUpc s)).ports,
        script := (nextInputs false (nextUpc s)).script } := by
      unfold nextInputs; split <;> rfl
    rw [h]
    simp [Nat.add_comm, Nat.add_left_comm]

@[simp] theorem advance_cfg (n : Nat) (s : State) : (advance n s).cfg = s.cfg := by rw [advance_eq]
@[simp] theorem advance_DSTATE (n : Nat) (s : State) : (advance n s).DSTATE = s.DSTATE := by rw [advance_eq]
@[simp] theorem advance_OE (n : Nat) (s : State) : (advance n s).OE = s.OE := by rw [advance_eq]
@[simp] theorem advance_REL (n : Nat) (s : State) : (advance n s).REL = s.REL := by rw [advance_eq]
@[simp] theorem advance_RS (n : Nat) (s : State) : (advance n s).RS = s.RS := by rw [advance_eq]
@[simp] theorem advance_E (n : Nat) (s : State) : (advance n s).E = s.E := by rw [advance_eq]
@[simp] theorem advance_D (n : Nat) (s : State) : (advance n s).D = s.D := by rw [advance_eq]
@[simp] theorem advance_CFG_F (n : Nat) (s : State) : (advance n s).CFG_F = s.CFG_F := by rw [advance_eq]
@[simp] theorem advance_CFG_C (n : Nat) (s : State) : (advance n s).CFG_C = s.CFG_C := by rw [advance_eq]
@[simp] theorem advance_CFG_B (n : Nat) (s : State) : (advance n s).CFG_B = s.CFG_B := by rw [advance_eq]
@[simp] theorem advance_STATUS (n : Nat) (s : State) : (advance n s).STATUS = s.STATUS := by rw [advance_eq]
@[simp] theorem advance_BUSY (n : Nat) (s : State) : (advance n s).BUSY = s.BUSY := by rw [advance_eq]
@[simp] theorem advance_CUR (n : Nat) (s : State) : (advance n s).CUR = s.CUR := by rw [advance_eq]
@[simp] theorem advance_PROG (n : Nat) (s : State) : (advance n s).PROG = s.PROG := by rw [advance_eq]
@[simp] theorem advance_ISTEP (n : Nat) (s : State) : (advance n s).ISTEP = s.ISTEP := by rw [advance_eq]
@[simp] theorem advance_now (n : Nat) (s : State) : (advance n s).now = s.now := by rw [advance_eq]
@[simp] theorem advance_trace (n : Nat) (s : State) : (advance n s).trace = s.trace := by rw [advance_eq]
@[simp] theorem advance_responses (n : Nat) (s : State) : (advance n s).responses = s.responses := by rw [advance_eq]
@[simp] theorem advance_earlier (n : Nat) (s : State) : (advance n s).earlier = s.earlier := by rw [advance_eq]
@[simp] theorem advance_draws (n : Nat) (s : State) : (advance n s).draws = s.draws := by rw [advance_eq]
@[simp] theorem advance_upc (n : Nat) (s : State) : (advance n s).upc = s.upc + n := by rw [advance_eq]

theorem nextInputs_resetStaysLow {s : State} (taken : Bool) (h : resetStaysLow s) :
    resetStaysLow (nextInputs taken s) := by
  obtain ⟨h0, hs⟩ := h
  unfold nextInputs
  split
  next p ps hps => exact ⟨hs p (by simp [hps]), fun q hq => hs q (by simp [hps, hq])⟩
  next => split <;> exact ⟨h0, hs⟩

theorem perform_advance (ops : List MicroOp) (n : Nat) (s : State) :
    perform ops (advance n s) = advance n (perform ops s) := by
  induction n generalizing s with
  | zero => rfl
  | succ n ih => simp only [advance, ih, perform_nextInputs, perform_nextUpc]

/-! ### Runs of the sequencer -/

theorem core_run_succ {n : Nat} {s t : State} (h : step s = .next t) :
    Sys2Proof.core.run (n + 1) s = Sys2Proof.core.run n t := by
  have h' : Sys2Proof.core.step s = .next t := h
  simp only [Host.Core.run, h']

theorem core_run_one {s t : State} (h : step s = .next t) : Sys2Proof.core.run 1 s = .next t := by
  rw [core_run_succ h]; rfl

/-- The sequencer performs the next micro-operations of the program, one a step; a `Complete` can only be the last
of them. -/
theorem run_program (ops rest : List MicroOp) (s : State) (hr : resetStaysLow s) (hb : s.BUSY = true)
    (hp : s.PROG.drop s.upc = ops ++ rest) (hc : ∀ op ∈ ops.dropLast, ∀ st, op ≠ .complete st) :
    Sys2Proof.core.run ops.length s = .next (advance ops.length (perform ops s)) := by
  induction ops generalizing s with
  | nil => rfl
  | cons op ops ih =>
    have hop : s.PROG[s.upc]? = some op := by
      have := congrArg (·[0]?) hp
      simpa using this
    rw [List.length_cons, core_run_succ (step_microOp hr.1 hb hop), perform_cons, advance]
    rw [← perform_nextUpc, ← perform_nextInputs]
    cases ops with
    | nil => rfl
    | cons op' ops' =>
      have hk := microOpDrawn_keepsRequest op s
      apply ih
      · apply nextInputs_resetStaysLow
        exact ⟨by simpa [hk.ports] using hr.1, by simpa [hk.script] using hr.2⟩
      · simpa [hb] using microOpDrawn_BUSY (hc op (by simp)) s
      · have := congrArg (List.drop 1) hp
        simpa [hk.PROG, hk.upc, List.drop_drop, Nat.add_comm] using this
      · intro o ho
        exact hc o (by simp [ho])

/-- A request accepted by an idle block that stays out of reset runs to the end of its program. -/
theorem runsTo_of_accept {i : Instr} {w : ReqWord} {ops : List MicroOp} {st : Status} {s : State} (hs : canRun s)
    (he : exec i s = .next (accept w (ops ++ [.complete st]) s)) (hc : ∀ op ∈ ops, ∀ st, op ≠ .complete st) :
    runsTo i s (ops.length + 1) (advance (ops.length + 1)
      (perform (ops ++ [.complete st]) (accepted w (ops ++ [.complete st]) s))) := by
  have ha : accept w (ops ++ [.complete st]) s = accepted w (ops ++ [.complete st]) s := by
    simp [accept, State.reqReady, hs.1, hs.2.1]
  rw [ha] at he
  refine ⟨_, he, ?_⟩
  have := run_program (ops ++ [.complete st]) [] (accepted w (ops ++ [.complete st]) s) hs.2 rfl (by simp)
    (by simpa using hc)
  simpa using this

end Sys2Proof.Machine
end

