-- ==== Sys2Proof/Laws/Program.lean ====
section
/-! SUPPORT. What the transfers contribute to the safety and the timing of a program that begins with one. -/
namespace Sys2Proof.Machine

open Sys2Proof.Safety

/-! ### Safe programs -/

section safe
variable (op : BitVec 3) (T : Timing) (tpost : Nat) (rest : List MicroOp) (ds : DisplayState) (rs' : Bit)

theorem safeProgram_nibbleTransfer (v : Nibble) (h : mayPulse op ds = true) :
    safeProgram op (nibbleTransfer T v (requestRs op) tpost ++ rest) ds true false rs' =
      safeProgram op rest ds true false (requestRs op) := by
  simp [nibbleTransfer, safeProgram, h]

theorem safeProgram_byteTransfer (b : Byte) (h : mayPulse op ds = true) :
    safeProgram op (byteTransfer T b (requestRs op) tpost ++ rest) ds true false rs' =
      safeProgram op rest ds true false (requestRs op) := by
  simp only [byteTransfer, List.append_assoc, safeProgram_nibbleTransfer _ _ _ _ _ _ _ h]

end safe

/-! ### Timed programs -/

theorem settled_later {T : Timing} {ph : Phase} {a b : Nat} (h : settled T ph a = true) (hab : a ≤ b) :
    settled T ph b = true := by
  cases ph <;> simp [settled] at *; omega

/-- Starting later never hurts: every condition on the time is a lower bound (R16). -/
theorem timedProgram_later {T : Timing} {prog : List MicroOp} {ph : Phase} {a b : Nat}
    (h : timedProgram T prog ph a = true) (hab : a ≤ b) : timedProgram T prog ph b = true := by
  induction prog generalizing ph a b with
  | nil => simp [timedProgram] at h
  | cons op rest ih =>
    cases op <;> simp [timedProgram] at h ⊢
    case complete => exact settled_later h hab
    case drive => exact ⟨settled_later h.1 hab, h.2⟩
    case enHigh => exact ⟨⟨h.1.1, by omega⟩, h.2⟩
    case enLow => exact ⟨⟨h.1.1, by omega⟩, h.2⟩
    case wait => exact ih h (by omega)
    case bind => exact ⟨settled_later h.1 hab, h.2⟩
    case release => exact ⟨settled_later h.1 hab, h.2⟩
    all_goals exact ih h hab

section timed
variable (T : Timing) (rs : Bit) (tpost : Nat) (rest : List MicroOp) (ph : Phase) (el : Nat)

theorem timedProgram_nibbleTransfer (v : Nibble) :
    timedProgram T (nibbleTransfer T v rs tpost ++ rest) ph el =
      (settled T ph el && timedProgram T rest .settling (max T.T_SETTLE_MIN tpost)) := by
  simp [nibbleTransfer, timedProgram]

theorem timedProgram_byteTransfer (b : Byte) :
    timedProgram T (byteTransfer T b rs tpost ++ rest) ph el =
      (settled T ph el && timedProgram T rest .settling (max T.T_SETTLE_MIN tpost)) := by
  simp [byteTransfer, timedProgram_nibbleTransfer, settled]

end timed

end Sys2Proof.Machine
end

