-- ==== Sys2Proof/Laws/Trace.lean ====
section
/-! SUPPORT. What a trace shows, as records are added: its pulses, their times, the phase it ends in; and what a
sequence of transfers adds to it. -/
namespace Sys2Proof.Machine

open Sys2Proof.Safety

/-! ### Pulses -/

theorem pulses_append (xs ys : List PinRecord) : pulses (xs ++ ys) = pulses xs ++ pulses ys := by
  induction xs with
  | nil => rfl
  | cons r xs ih => simp only [List.cons_append, pulses, ih]; split <;> rfl

/-- The last record of a trace, if there is one, has E low. -/
def EndsLow (tr : List PinRecord) : Prop := ∀ r, tr.getLast? = some r → r.E = false

theorem pulseTimes_append (xs ys : List PinRecord) (h : EndsLow xs) :
    pulseTimes (xs ++ ys) = pulseTimes xs ++ pulseTimes ys := by
  induction xs with
  | nil => rfl
  | cons r xs ih =>
    cases xs with
    | nil =>
      have := h r rfl
      cases ys <;> simp [pulseTimes, this]
    | cons q xs =>
      have ih := ih fun r hr => h r (by simpa [List.getLast?_cons_cons] using hr)
      simp only [List.cons_append, pulseTimes] at ih ⊢
      split <;> simp [ih]

/-- Pulses one after the other from `t` to `e`: each rises at least the set-up after what came before, is wide
enough, and is followed by at least its own gap. -/
def PulseChain (T : Timing) (t : Nat) : List Nat → List (Nat × Nat) → Nat → Prop
  | [], [], e => t ≤ e
  | g :: gs, p :: ps, e =>
    t + T.T_SETUP_MIN ≤ p.1 ∧ p.1 + T.T_EN_HIGH_MIN ≤ p.2 ∧ PulseChain T (p.2 + g) gs ps e
  | _, _, _ => False

theorem PulseChain.earlier {T : Timing} {t t' e : Nat} {gs : List Nat} {ps : List (Nat × Nat)} (h : t' ≤ t)
    (k : PulseChain T t gs ps e) : PulseChain T t' gs ps e := by
  cases gs <;> cases ps <;> simp [PulseChain] at *
  · omega
  · exact ⟨by omega, k.2⟩

theorem PulseChain.append {T : Timing} {t m e : Nat} {gs gs' : List Nat} {ps ps' : List (Nat × Nat)}
    (h : PulseChain T t gs ps m) (k : PulseChain T m gs' ps' e) : PulseChain T t (gs ++ gs') (ps ++ ps') e := by
  induction gs generalizing t ps with
  | nil => cases ps <;> simp [PulseChain] at h; exact k.earlier h
  | cons g gs ih =>
    cases ps with
    | nil => simp [PulseChain] at h
    | cons p ps => simp only [PulseChain] at h; exact ⟨h.1, h.2.1, ih h.2.2⟩

/-! ### Sequences of transfers -/

/-- From `s` to `u` the lines have shown the pulses `qs` with at least the gaps `gs` after them, and nothing but the
lines, the time and ISTEP changed. -/
structure Sends (T : Timing) (qs : List (Bit × Nibble)) (gs : List Nat) (s u : State) : Prop where
  frame : u = { s with
    RS := u.RS, E := u.E, D := u.D, trace := u.trace, now := u.now, draws := u.draws, ISTEP := u.ISTEP }
  shows : ∃ new, u.trace = s.trace ++ new ∧ EndsLow new ∧ pulses new = qs ∧
    PulseChain T s.now gs (pulseTimes new) u.now ∧ ∀ rs, (∀ q ∈ qs, q.1 = rs) → ∀ r ∈ new, r.RS = rs

theorem Sends.trans {T : Timing} {qs qs' : List (Bit × Nibble)} {gs gs' : List Nat} {s u v : State}
    (h : Sends T qs gs s u) (k : Sends T qs' gs' u v) : Sends T (qs ++ qs') (gs ++ gs') s v := by
  obtain ⟨hf, n1, a1, b1, c1, d1, e1⟩ := h
  obtain ⟨kf, n2, a2, b2, c2, d2, e2⟩ := k
  refine ⟨?_, n1 ++ n2, by simp [a1, a2], ?_, by simp [pulses_append, c1, c2], ?_, ?_⟩
  · rw [hf] at kf; exact kf
  · intro r hr
    rw [List.getLast?_append] at hr
    cases hl : n2.getLast? with
    | none => simp [hl] at hr; exact b1 r hr
    | some q => simp [hl] at hr; subst hr; exact b2 _ hl
  · rw [pulseTimes_append _ _ b1]; exact d1.append d2
  · intro rs hq r hr
    rcases List.mem_append.1 hr with hr | hr
    · exact e1 rs (fun q h => hq q (by simp [h])) r hr
    · exact e2 rs (fun q h => hq q (by simp [h])) r hr

theorem sends_step (T : Timing) (i : InitStep) (s : State) : Sends T [] [] s (opStep i s) :=
  ⟨rfl, [], by simp [EndsLow, pulses, pulseTimes, PulseChain]⟩

theorem sends_wait (T : Timing) (tmin slack : Nat) (s : State) : Sends T [] [] s (opWait tmin slack s) :=
  ⟨rfl, [], by simp [EndsLow, pulses, pulseTimes, PulseChain]⟩

theorem sends_nibble (T : Timing) (v : Nibble) (rs : Bit) (tpost : Nat) (s : State) (he : s.E = false) :
    Sends T [(rs, v)] [max T.T_SETTLE_MIN tpost] s (perform (nibbleTransfer T v rs tpost) s) := by
  refine ⟨nibbleTransfer_onlyLinesAndTime _ _ _ _ _, _, nibbleTransfer_trace _ _ _ _ _, ?_, ?_, ?_, ?_⟩
  · simp [EndsLow]
  · simp [pulses, he]
  · simp [pulseTimes, he, PulseChain, nibbleTransfer_now]
  · simp

theorem sends_byte (T : Timing) (b : Byte) (rs : Bit) (tpost : Nat) (s : State) (he : s.E = false) :
    Sends T (bytePulses rs b) [T.T_SETTLE_MIN, max T.T_SETTLE_MIN tpost] s
      (perform (byteTransfer T b rs tpost) s) := by
  rw [byteTransfer, perform_append]
  have h := (sends_nibble T (highNibble b) rs 0 s he).trans
    (sends_nibble T (lowNibble b) rs tpost (perform (nibbleTransfer T (highNibble b) rs 0) s) rfl)
  simpa [bytePulses] using h

@[simp] theorem byteTransfer_E (T : Timing) (b : Byte) (rs : Bit) (tpost : Nat) (s : State) :
    (perform (byteTransfer T b rs tpost) s).E = false := by
  rw [byteTransfer, perform_append]; rfl

@[simp] theorem byteTransfer_RS (T : Timing) (b : Byte) (rs : Bit) (tpost : Nat) (s : State) :
    (perform (byteTransfer T b rs tpost) s).RS = rs := by
  rw [byteTransfer, perform_append]; rfl

/-! ### One record more -/

theorem edgesOk_snoc (T : Timing) (tr : List PinRecord) (r : PinRecord) :
    edgesOk T (tr ++ [r]) =
      (edgesOk T tr && (match tr.getLast? with | some p => edgeOk T p r | none => true)) := by
  induction tr with
  | nil => rfl
  | cons a tr ih =>
    cases tr with
    | nil => simp [edgesOk]
    | cons b tr =>
      simp only [List.cons_append, edgesOk] at ih ⊢
      rw [ih, Bool.and_assoc]; simp [List.getLast?_cons]

theorem settlesOk_snoc (T : Timing) (tr : List PinRecord) (r : PinRecord) :
    settlesOk T (tr ++ [r]) =
      (settlesOk T tr && (match tr.reverse with | q :: p :: _ => settleOk T p q r | _ => true)) := by
  induction tr with
  | nil => rfl
  | cons a tr ih =>
    match tr, ih with
    | [], _ => simp [settlesOk]
    | [_], _ => simp [settlesOk]
    | b :: c :: tr, ih =>
      simp only [List.cons_append, settlesOk] at ih ⊢
      rw [ih, Bool.and_assoc]
      congr 2
      have e : (b :: c :: tr).reverse = (c :: tr).reverse ++ [b] := by simp
      rw [List.reverse_cons (a := a), e]
      have hne : (c :: tr).reverse ≠ [] := by simp
      cases h : (c :: tr).reverse with
      | nil => exact absurd h hne
      | cons x xs => cases xs <;> simp

theorem tracePhase_snoc (tr : List PinRecord) (r : PinRecord) :
    tracePhase (tr ++ [r]) =
      if r.E then .high
      else (match tr.getLast? with | some p => if p.E then .settling else .low | none => .low) := by
  have e : (tr ++ [r]).reverse = r :: tr.reverse := by simp
  simp only [tracePhase, e, phaseOf]
  split; rfl
  rw [← List.head?_reverse]
  cases tr.reverse <;> rfl

end Sys2Proof.Machine
end

