-- ==== Sys2Proof/Tests/Slice0.lean ====
section
/-! SUPPORT. The model's own tests: well-formedness, decoding from words written out of the spec's encodings, one step
for each instruction against the vectors of 95_test_vectors.md, and for each statement with hypotheses a state that
meets them. -/
namespace Sys2Proof.Tests

open Sys2Proof Sys2Proof.Machine Sys2Proof.Safety

/-! ### States -/

/-- Out of reset, both prerequisites of INIT given. -/
def idle : State := { State.reset with ports := { Ports.quiet with BIND_OK := true, TIMING_OK := true } }

/-- Ready as W1 leaves it, with the records of `Bind` and of pulse 14 for its trace. -/
def ready : State :=
  { idle with
    DSTATE := .ready, OE := true, D := 0b1100, ISTEP := .done, STATUS := .ok, CUR := 0x100, now := 46229100
    trace := [⟨0, true, false, false, 0⟩, ⟨46188450, true, false, false, 0b1100⟩,
      ⟨46188650, true, false, true, 0b1100⟩, ⟨46189100, true, false, false, 0b1100⟩] }

/-- Faulted, as an INIT with BIND_OK = 0 leaves it. -/
def faulted : State := { idle with DSTATE := .faulted, ISTEP := .fault, STATUS := .pinUnavailable }

/-- After RELEASE from Ready. -/
def released : State := { idle with REL := true, STATUS := .ok }

def noBinding : State := { ready with ports := { ready.ports with BIND_OK := false } }

def noTiming : State := { ready with ports := { ready.ports with TIMING_OK := false } }

def inReset : State := { ready with ports := { ready.ports with RESET := true } }

/-- A request in flight whose next micro-operation is `op`. -/
def busyAt (op : MicroOp) : State := { ready with BUSY := true, CUR := 0x348, PROG := [op, .complete .ok], upc := 0 }

/-- An INIT in flight whose next micro-operation raises E. -/
def initAtRise : State :=
  { ready with
    DSTATE := .initializing, ISTEP := .wake1, BUSY := true, CUR := 0x100, upc := 0
    PROG := [.enHigh, .enLow, .setState .ready, .complete .ok] }

/-- What a step answers, where it answers a next state. -/
def after (o : Host.Outcome State Fault Refusal) : Option State :=
  match o with
  | .next s => some s
  | .fault _ => none
  | .refused _ => none

/-- A program with every wait at its floor, as 95_test_vectors.md computes. -/
def atFloor (prog : List MicroOp) (s : State) : State := prog.foldl (fun t op => microOp 0 op t) s

/-! ### Well-formedness -/

theorem test_wf_refuses_init_without_reserved_bits : (Instr.illegalInitRsvd 0x07).wf = false := by decide
theorem test_wf_accepts_init_with_reserved_bit : (Instr.illegalInitRsvd 0x08).wf = true := by decide
theorem test_wf_refuses_release_without_payload : (Instr.illegalReleasePayload 0x00).wf = false := by decide
theorem test_wf_accepts_release_with_payload : (Instr.illegalReleasePayload 0x01).wf = true := by decide

/-! ### Decoding: words written bit by bit from R63 to R69, R76, R73 and R109 to R115 -/

theorem test_decode_init :
    decodeRequest 0b001_00000_000 = .init false false false ∧ decodeRequest 0b001_00000_001 = .init true false false ∧
    decodeRequest 0b001_00000_010 = .init false true false ∧ decodeRequest 0b001_00000_100 = .init false false true := by
  decide
theorem test_decode_cmd :
    decodeRequest 0b010_00000100 = .cmd 0x04 ∧ decodeRequest 0b010_11111111 = .cmd 0xFF ∧
    decodeRequest 0b010_00000000 = .cmd 0x00 := by decide
theorem test_decode_data :
    decodeRequest 0b011_01001000 = .data 0x48 ∧ decodeRequest 0b011_00000000 = .data 0x00 ∧
    decodeRequest 0b011_11111111 = .data 0xFF := by decide
theorem test_decode_release : decodeRequest 0b100_00000000 = .release := by decide
theorem test_decode_illegal_op :
    decodeRequest 0b000_00000000 = .illegalOp000 0x00 ∧ decodeRequest 0b000_11111111 = .illegalOp000 0xFF ∧
    decodeRequest 0b101_00000000 = .illegalOp101 0x00 ∧ decodeRequest 0b110_11111111 = .illegalOp110 0xFF ∧
    decodeRequest 0b111_00000000 = .illegalOp111 0x00 := by decide
theorem test_decode_illegal_payload :
    decodeRequest 0b001_00001_000 = .illegalInitRsvd 0x08 ∧ decodeRequest 0b001_11111_111 = .illegalInitRsvd 0xFF ∧
    decodeRequest 0b100_00000001 = .illegalReleasePayload 0x01 := by decide
theorem test_decode_pseudo :
    decodeRequest 0b010_00000001 = .clear ∧ decodeRequest 0b010_00000010 = .home ∧
    decodeRequest 0b010_1000_1010 = .setpos0 0b1010 ∧ decodeRequest 0b010_1100_1111 = .setpos1 0b1111 ∧
    decodeRequest 0b010_00011000 = .shiftl ∧ decodeRequest 0b010_00011100 = .shiftr := by decide
theorem test_decode_lone_nibbles :
    decode (.nibble false 0b0011) = .ok .lcdWake ∧ decode (.nibble false 0b0010) = .ok .lcdMode4 ∧
    decode (.nibble true 0b0011) = .error .notALoneNibble ∧ decode (.nibble false 0b0000) = .error .notALoneNibble := by
  refine ⟨rfl, rfl, rfl, rfl⟩
theorem test_decode_bytes :
    decodeByte false 0b0010_1000 = .lcdFuncset false ∧ decodeByte false 0b0010_1100 = .lcdFuncset true ∧
    decodeByte false 0b0000_1000 = .lcdDispoff ∧ decodeByte false 0b0000_0001 = .lcdClear ∧
    decodeByte false 0b0000_0110 = .lcdEntry ∧ decodeByte false 0b0000_1110 = .lcdDispon true false ∧
    decodeByte false 0b0000_1101 = .lcdDispon false true := by decide
theorem test_decode_any_byte :
    decodeByte false 0b0001_1000 = .lcdCmd 0x18 ∧ decodeByte true 0b0000_0001 = .lcdData 0x01 := by decide

/-- The host's numbers: a request word of 16 bits, of 11; the lone nibbles; a byte with its RS above it. -/
theorem test_table_words :
    decodeTableWord 16 0x107 = some (.init true true true) ∧ decodeTableWord 11 0x2C5 = some (.setpos1 5) ∧
    decodeTableWord 8 0b0_0011 = some .lcdWake ∧ decodeTableWord 9 0b1_0100_1000 = some (.lcdData 0x48) := by decide
theorem test_table_words_refused :
    decodeTableWord 16 0x800 = none ∧ decodeTableWord 8 0x20 = none ∧ decodeTableWord 8 0b0_0101 = none ∧
    decodeTableWord 9 0x200 = none ∧ decodeTableWord 24 0 = none := by decide

/-- No two request rows of the table are the same, and each is matched by a word of its own. -/
theorem test_rows_are_reached :
    requestRows.map (fun r => rowOf r.mtch) =
      ["CLEAR", "HOME", "SETPOS0", "SETPOS1", "SHIFTL", "SHIFTR", "INIT", "CMD", "DATA", "RELEASE", "ILLEGAL_OP000",
        "INIT", "RELEASE", "ILLEGAL_OP101", "ILLEGAL_OP110", "ILLEGAL_OP111"].map some := by decide

/-! ### Requests: one step, acceptance (R77) -/

/-- R100: 103 micro-operations from Ready, 102 from reset; W1 begins with S_BIND. -/
theorem test_init_accepts :
    ((after (exec (.init false false false) ready)).map fun t => (t.CUR, t.PROG.length, t.upc, t.BUSY)) =
        some (0x100, 103, 0, true) ∧
    ((after (exec (.init true true true) idle)).map fun t => (t.CUR, t.PROG.length, t.PROG.head?)) =
        some (0x107, 102, some (.step .bind)) := by decide

/-- V-INIT: BIND_OK is checked first. -/
theorem test_init_fails :
    ((after (exec (.init false false false) { noBinding with ports := Ports.quiet })).map fun t => t.PROG) =
        some [.step .bind, .setState .initializing, .release, .step .fault, .setState .faulted,
          .complete .pinUnavailable] ∧
    ((after (exec (.init false false false) { noTiming with OE := false })).map fun t => t.PROG) =
        some [.step .bind, .setState .initializing, .step .fault, .setState .faulted, .complete .timingPrereq] := by
  decide

theorem test_cmd_long :
    ((after (exec (.cmd 0x03) ready)).map fun t => t.PROG.drop 11) = some [.wait 1520000, .complete .ok] ∧
    ((after (exec (.cmd 0x04) ready)).map fun t => t.PROG.drop 11) = some [.wait 40000, .complete .ok] := by decide
theorem test_cmd_not_ready :
    ((after (exec (.cmd 0x01) idle)).map fun t => (t.CUR, t.PROG)) = some (0x201, [.complete .notReady]) := by decide

theorem test_data_sends :
    ((after (exec (.data 0x48) ready)).map fun t => (t.CUR, t.PROG.length, t.PROG.head?, t.PROG[6]?, t.PROG.drop 11)) =
      some (0x348, 13, some (.drive true 0x4), some (.drive true 0x8), [.wait 40000, .complete .ok]) := by decide
theorem test_data_not_ready :
    ((after (exec (.data 0xFF) faulted)).map fun t => (t.CUR, t.PROG)) = some (0x3FF, [.complete .notReady]) := by
  decide

theorem test_release_bound :
    ((after (exec .release ready)).map fun t => (t.CUR, t.PROG)) =
      some (0x400, [.release, .step .idle, .setState .uninitialized, .complete .ok]) := by decide
theorem test_release_unbound :
    ((after (exec .release released)).map fun t => t.PROG) =
      some [.step .idle, .setState .uninitialized, .complete .ok] := by decide

theorem test_illegal_words :
    ([Instr.illegalOp000 0x00, .illegalInitRsvd 0x08, .illegalReleasePayload 0x01, .illegalOp101 0x00,
        .illegalOp110 0xFF, .illegalOp111 0xFF].map fun i => (after (exec i faulted)).map fun t => (t.CUR, t.PROG)) =
      ([0x000, 0x108, 0x401, 0x500, 0x6FF, 0x7FF].map fun w => some (w, [.complete .illegalRequest])) := by decide

theorem test_pseudo_words :
    ([Instr.clear, .home, .setpos0 10, .setpos1 15, .shiftl, .shiftr].map fun i =>
        (after (exec i ready)).map fun t => (t.CUR, t.PROG[0]?, t.PROG[6]?)) =
      ([(0x201, 0x0, 0x1), (0x202, 0x0, 0x2), (0x28A, 0x8, 0xA), (0x2CF, 0xC, 0xF), (0x218, 0x1, 0x8),
        (0x21C, 0x1, 0xC)].map fun q => some (q.1, some (.drive false q.2.1), some (.drive false q.2.2))) := by decide

/-! ### Micro-operations: one step -/

/-- R85: two records, both now. -/
theorem test_release_records :
    ((after (step (busyAt .release))).map fun t => (t.OE, t.REL, t.D, t.upc, t.trace.drop 4)) =
      some (false, true, 0, 1, [⟨46229100, true, false, false, 0⟩, ⟨46229100, false, false, false, 0⟩]) := by decide
theorem test_complete_answers :
    ((after (step (busyAt (.complete .notReady)))).map fun t => (t.STATUS.code, t.BUSY, t.responses)) =
      some (0b001, false, [⟨46229100, .notReady⟩]) := by decide
theorem test_drive_keeps_enable :
    ((after (step { busyAt (.drive true 0x5) with E := true })).map fun t => (t.RS, t.E, t.D)) =
      some (true, true, 0x5) := by decide
/-- R91: the settle floor stays in force where `tpost` is below it (2.1). -/
theorem test_settle_floor_wins : (nibbleTransfer .default 0x5 true 10000).getLast? = some (.wait 40000) := by decide
theorem test_wait_at_floor : (atFloor (nibbleTransfer .default 0x3 false 4100000) ready).now = 46229100 + 4100650 := by
  decide

/-! ### Display transfers: the pulses of one `exec` -/

theorem test_wake_pulse :
    ((after (exec .lcdWake { ready with ISTEP := .wake1 })).map fun t => pulses (t.trace.drop 4)) =
      some [(false, 0x3)] := by decide
theorem test_wake_gaps :
    wakeGap .default .wake1 = 4100000 ∧ wakeGap .default .wake2 = 100000 ∧ wakeGap .default .wake3 = 100000 := by decide
theorem test_mode4_pulse :
    ((after (exec .lcdMode4 ready)).map fun t => pulses (t.trace.drop 4)) = some [(false, 0x2)] := by decide
theorem test_funcset_pulses :
    ((after (exec (.lcdFuncset true) ready)).map fun t => pulses (t.trace.drop 4)) =
      some [(false, 0x2), (false, 0xC)] := by decide
theorem test_dispoff_pulses :
    ((after (exec .lcdDispoff ready)).map fun t => pulses (t.trace.drop 4)) = some [(false, 0x0), (false, 0x8)] := by
  decide
theorem test_clear_pulses :
    ((after (exec .lcdClear ready)).map fun t => pulses (t.trace.drop 4)) = some [(false, 0x0), (false, 0x1)] := by
  decide
theorem test_entry_pulses :
    ((after (exec .lcdEntry ready)).map fun t => pulses (t.trace.drop 4)) = some [(false, 0x0), (false, 0x6)] := by
  decide
theorem test_dispon_pulses :
    ((after (exec (.lcdDispon true false) ready)).map fun t => pulses (t.trace.drop 4)) =
      some [(false, 0x0), (false, 0xE)] := by decide
theorem test_lcd_cmd_pulses :
    ((after (exec (.lcdCmd 0xCF) ready)).map fun t => pulses (t.trace.drop 4)) =
      some [(false, 0xC), (false, 0xF)] := by decide
theorem test_lcd_data_pulses :
    ((after (exec (.lcdData 0x7E) ready)).map fun t => pulses (t.trace.drop 4)) =
      some [(true, 0x7), (true, 0xE)] := by decide

/-! ### The program of INIT against W1, at floor draws -/

theorem test_w1_pulses :
    pulses (atFloor (progInit false false false idle) idle).trace =
      ([0x3, 0x3, 0x3, 0x2, 0x2, 0x8, 0x0, 0x8, 0x0, 0x1, 0x0, 0x6, 0x0, 0xC].map fun v => (false, v)) := by
  decide +kernel
theorem test_w1_rises :
    (pulseTimes (atFloor (progInit false false false idle) idle).trace).map Prod.fst =
      [40000200, 44100850, 44201500, 44302150, 44342800, 44383450, 44424100] ++
      [44464750, 44505400, 44546050, 46066700, 46107350, 46148000, 46188650] := by decide +kernel
theorem test_w1_response :
    (atFloor (progInit false false false idle) idle).responses = [⟨46229100, .ok⟩] ∧
    (atFloor (progInit false false false idle) idle).trace.length = 43 := by decide +kernel
theorem test_clear_duration :
    (atFloor (progCmd 0x01 ready) ready).responses = [⟨46229100 + 1561300, .ok⟩] ∧
    (atFloor (progData 0x41 ready) ready).responses = [⟨46229100 + 81300, .ok⟩] := by decide +kernel

/-! ### Steps around `exec` -/

/-- R149: reset takes the block back, with a request in flight. -/
theorem test_reset_step :
    ((after (step inReset)).map fun t => (t.DSTATE, t.OE, t.STATUS.code, t.now, t.trace.length, t.earlier.length)) =
      some (.uninitialized, false, 0b111, 0, 0, 1) := by decide
theorem test_held_request :
    ((after (step { busyAt .enHigh with ports := { ready.ports with REQ_VALID := true, REQ := 0x341 } })).map
      fun t => (t.CUR, t.ports.REQ_VALID, t.ports.REQ)) = some (0x348, true, 0x341) := by decide
/-- The next step after the host's placing runs the row, from reset. -/
theorem test_fetch_words :
    ([0x100, 0x204, 0x348, 0x400, 0x0FF, 0x108, 0x401, 0x500, 0x600, 0x700, 0x201].map fun w =>
      (after (step (State.reset.withFetchWord 16 w))).map fun t => (t.CUR, t.BUSY, t.upc)) =
      ([0x100, 0x204, 0x348, 0x400, 0x0FF, 0x108, 0x401, 0x500, 0x600, 0x700, 0x201].map fun w =>
        some (w, true, 0)) := by decide
theorem test_fetch_transfer :
    ((after (step (State.reset.withFetchWord 5 0b0_0011))).map fun t => (t.D, t.upc)) = some (0x3, 1) ∧
    ((after (step (State.reset.withFetchWord 9 0b1_0100_1000))).map fun t => (t.RS, t.D)) = some (true, 0x4) := by
  decide

/-! ### The host software: W3 to W7 -/

/-- W3: 40 bytes, none of them a terminator. -/
theorem test_write_forty :
    let w := clientWrite true (List.replicate 40 0x41#8) .start
    (w.accepted, w.truncated, w.result.client.buffer.length, (requestsOf w.result.actions).length,
      (requestsOf w.result.actions)[17]?) = (32, true, 32, 34, some (.setpos1 0)) := by decide
/-- R128, R123: the buffer is written before `clear()` fails. -/
theorem test_write_not_ready :
    clientWrite false [0x61] .start = ⟨1, false, some .notReady, [], ⟨false, 0, [0x61]⟩⟩ := by decide
theorem test_set_cursor_twenty : clientSetCursor true false 20 .start = ⟨some .outOfBounds, [], .start⟩ := by decide
theorem test_set_cursor_fifteen : requestsOf (clientSetCursor true false 15 .start).actions = [.setpos0 15] := by decide
/-- W5: 20 characters from column 10 of line 0. -/
theorem test_print_wraps :
    (printFrom false 10 (List.replicate 20 0x41#8)).2 = (true, 14) ∧
    (requestsOf (printFrom false 10 (List.replicate 20 0x41#8)).1).length = 21 ∧
    (requestsOf (printFrom false 10 (List.replicate 20 0x41#8)).1)[6]? = some (.setpos1 0) := by decide
/-- W6: a trailing line terminator becomes a space. -/
theorem test_write_terminator :
    let w := clientWrite true [0x61, 0x62, 0x0A] .start
    (w.accepted, requestsOf w.result.actions, readBytes 0 3 w.result.client, readBytes 3 3 w.result.client) =
      (3, [.clear, .data 0x61, .data 0x62, .data 0x20], [0x61, 0x62, 0x20], []) := by decide
/-- R129, R124, R126: a repaint moves the cursor to the end of the text, and does not spoil a read. -/
theorem test_read_repaints :
    clientRead true true 1 5 ⟨true, 7, [0x61, 0x62]⟩ =
      ⟨[0x62], [.request .clear, .request (.data 0x61), .request (.data 0x62)], ⟨false, 2, [0x61, 0x62]⟩⟩ ∧
    clientRead false true 1 5 ⟨true, 7, [0x61, 0x62]⟩ = ⟨[0x62], [], ⟨true, 7, [0x61, 0x62]⟩⟩ := by decide
/-- R130: a scroll by a negative count. -/
theorem test_scroll_negative : clientScroll true 0 true (-1) .start = ⟨some .invalidArgument, [], .start⟩ := by decide
/-- W8: after INIT from past the end of line 1, "Hi" is printed as after `clear()`. -/
theorem test_print_after_init :
    (clientPrint true [0x48, 0x69] (clientOpen false false false true true ⟨true, 16, []⟩).client).actions =
      [.request (.data 0x48), .request (.data 0x69)] := by decide
/-- R153: with only quiet inputs to come the run has ended, with a request to come it has not. -/
theorem test_run_ended :
    runEnded { idle with script := [Ports.quiet] } = true ∧
    runEnded { idle with script := [{ Ports.quiet with REQ_VALID := true }] } = false := by decide
/-- R130, R132: a Reinitialize with pins that cannot be had. -/
theorem test_reinitialize_fails :
    clientControl true false 0 (.reinitialize true false false false false) .start =
      ⟨some .pinUnavailable, [.presentInit true false false false false], .start⟩ := by decide

/-! ### The notation -/

theorem test_asm_lines :
    readLine "INIT 0,1,1".toList = some (some (.init false true true)) ∧
    readLine "  DATA 'H'   ; a comment".toList = some (some (.data 0x48)) ∧
    readLine "SETPOS 1, 5".toList = some (some (.setpos 1 5)) ∧
    readLine "CMD 0x80".toList = some (some (.cmd 0x80)) ∧ readLine "; nothing".toList = some none := by decide
/-- R75: a quote is a printable character, and so is a semicolon. -/
theorem test_asm_quotes :
    readLine "DATA ''' ; note".toList = some (some (.data 0x27)) ∧
    readLine "DATA ';' ; note".toList = some (some (.data 0x3B)) ∧
    readLine "DATA '\"' ; note".toList = some (some (.data 0x22)) ∧
    readLine "PUTS \"a;b\" ; note".toList = some (some (.puts ['a', ';', 'b'])) := by decide
theorem test_asm_refuses :
    readLine "CMD 256".toList = none ∧ readLine "INIT 2".toList = none ∧ readLine "JUMP 1".toList = none ∧
    readLine ".word 0x800".toList = none ∧ assembleWords (.setpos 0 16) = none := by decide
theorem test_asm_words :
    assembleWords (.puts ['H', 'i']) = some [0x348, 0x369] ∧ assembleWords (.word 0x7FF) = some [0x7FF] := by decide

/-! ### Witnesses: for each statement with hypotheses, a state and operands that meet all of them -/

theorem witness_idle_can_run : canRun idle ∧ idle.ports.BIND_OK = true ∧ idle.ports.TIMING_OK = true ∧
    idle.DSTATE ≠ .ready ∧ idle.OE = false := by simp [canRun, resetStaysLow, idle, State.reset, Ports.quiet]

theorem witness_ready_can_run : canRun ready ∧ ready.ports.BIND_OK = true ∧ ready.ports.TIMING_OK = true ∧
    ready.DSTATE = .ready ∧ ready.OE = true := by simp [canRun, resetStaysLow, ready, idle, State.reset, Ports.quiet]

theorem witness_ready_control : ControlInv ready := by
  refine ⟨?_, ?_, ?_, ?_⟩ <;> intro h <;> first | rfl | cases h

theorem witness_ready_timing : TimingInv ready := by
  refine ⟨by decide, ?_, ?_, ?_, ?_, ?_⟩
  · intro r h; cases h; exact ⟨by decide, rfl, rfl, rfl, rfl⟩
  · intro h; cases h
  · intro _ h; cases h
  · intro h; cases h
  · intro _; decide

theorem witness_ResetInputResetsTheBlock :
    inReset.ports.RESET = true ∧ { inReset with BUSY := true, PROG := [.enHigh] }.ports.RESET = true := ⟨rfl, rfl⟩

/-- Each kind of word, presented at the port of an idle block. -/
theorem witness_StepRunsTheDecodedRequest :
    ∀ i ∈ [Instr.init true true true, .cmd 0xFF, .data 0x00, .release, .illegalInitRsvd 0x08,
        .illegalReleasePayload 0xFF, .setpos1 15], ∃ w,
      let s := { idle with ports := { idle.ports with REQ_VALID := true, REQ := w } }
      i.wf = true ∧ encode i = .request w ∧ s.ports.REQ = w ∧ s.ports.REQ_VALID = true ∧ s.ports.RESET = false ∧
        s.BUSY = false := by
  intro i h
  simp only [List.mem_cons, List.not_mem_nil, or_false] at h
  rcases h with rfl | rfl | rfl | rfl | rfl | rfl | rfl <;> exact ⟨_, rfl, rfl, rfl, rfl, rfl, rfl⟩

/-- Any micro-operation, next in a request in flight; the step answers. -/
theorem witness_StepPerformsTheMicroOperationAtUpc (op : MicroOp) :
    (busyAt op).ports.RESET = false ∧ (busyAt op).BUSY = true ∧ (busyAt op).PROG[(busyAt op).upc]? = some op ∧
      ∃ t, step (busyAt op) = .next t := ⟨rfl, rfl, rfl, _, rfl⟩

/-- Each clause has its micro-operation. -/
theorem witness_LineMicroOperationsWriteAndRecord :
    ∀ op ∈ [MicroOp.drive true 0xF, .enHigh, .enLow, .bind, .release],
      (busyAt op).ports.RESET = false ∧ (busyAt op).BUSY = true ∧ (busyAt op).PROG[(busyAt op).upc]? = some op ∧
        ∃ t, step (busyAt op) = .next t := fun op _ => witness_StepPerformsTheMicroOperationAtUpc op

/-- Each clause has its micro-operation. -/
theorem witness_OtherMicroOperationsChangeNoLine :
    ∀ op ∈ [MicroOp.wait 0, .setState .faulted, .step .dispon, .latch true true true, .complete .notReady],
      (busyAt op).ports.RESET = false ∧ (busyAt op).BUSY = true ∧ (busyAt op).PROG[(busyAt op).upc]? = some op ∧
        ∃ t, step (busyAt op) = .next t := fun op _ => witness_StepPerformsTheMicroOperationAtUpc op

theorem witness_OnlyWaitAdvancesTime :
    (busyAt (.wait 1)).ports.RESET = false ∧ ∃ t, step (busyAt (.wait 1)) = .next t := ⟨rfl, _, rfl⟩

theorem witness_RequestPresentedWhileNotReadyIsHeld :
    let s := { busyAt .enHigh with ports := { ready.ports with REQ_VALID := true, REQ := 0x341 } }
    (Instr.data 0x41).isRequest = true ∧ s.reqReady = false ∧ s.ports.RESET = false ∧ s.BUSY = true ∧
      s.script = [] ∧ ∃ t, step s = .next t := ⟨rfl, rfl, rfl, rfl, rfl, _, rfl⟩

theorem witness_IdleBlockWaits :
    ready.ports.RESET = false ∧ ready.BUSY = false ∧ ready.ports.REQ_VALID = false := ⟨rfl, rfl, rfl⟩

theorem witness_AcceptanceFollowsTheWord :
    (Instr.setpos0 15).wf = true ∧ encode (.setpos0 15) = .request 0x28F ∧ ready.reqReady = true ∧
      idle.reqReady = true := ⟨rfl, rfl, rfl, rfl⟩

/-- A long command, the first that is not, and the last byte. -/
theorem witness_CmdInReadySendsItsByte :
    canRun ready ∧ ready.DSTATE = .ready ∧ (0x03#8 : Byte) ∈ ready.cfg.cmds.LONG_EXEC_CMDS ∧
      ¬ (0x04#8 : Byte) ∈ ready.cfg.cmds.LONG_EXEC_CMDS := ⟨witness_ready_can_run.1, rfl, by decide, by decide⟩

theorem witness_DataInReadySendsItsByte : canRun ready ∧ ready.DSTATE = .ready := ⟨witness_ready_can_run.1, rfl⟩

/-- Each of the six, the cursor at its first and last column. -/
theorem witness_PseudoRequestsSendTheirExpansion :
    canRun ready ∧ ready.DSTATE = .ready ∧
    ∀ q ∈ [(Instr.clear, 0x01#8), (.home, 0x02#8), (.setpos0 0, 0x80#8), (.setpos0 15, 0x8F#8), (.setpos1 0, 0xC0#8),
        (.setpos1 15, 0xCF#8), (.shiftl, 0x18#8), (.shiftr, 0x1C#8)],
      (q.1 = .clear ∧ q.2 = 0x01#8) ∨ (q.1 = .home ∧ q.2 = 0x02#8) ∨
      (∃ col, q.1 = .setpos0 col ∧ q.2 = 0x80#8 + col.setWidth 8) ∨
      (∃ col, q.1 = .setpos1 col ∧ q.2 = 0xC0#8 + col.setWidth 8) ∨
      (q.1 = .shiftl ∧ q.2 = 0x18#8) ∨ (q.1 = .shiftr ∧ q.2 = 0x1C#8) := by
  refine ⟨witness_ready_can_run.1, rfl, ?_⟩
  simp

theorem witness_SendingOutsideReadyIsNotReady :
    (canRun idle ∧ idle.DSTATE ≠ .ready ∧ ControlInv idle) ∧ canRun faulted ∧ faulted.DSTATE ≠ .ready := by
  refine ⟨⟨witness_idle_can_run.1, by decide, ⟨?_, ?_, ?_, ?_⟩⟩, ?_, by decide⟩
  · intro h; cases h
  · intro _; decide
  · intro _; exact ⟨rfl, rfl, rfl⟩
  · intro h; cases h
  · simp [canRun, resetStaysLow, faulted, idle, State.reset, Ports.quiet]

theorem witness_PerformedByteEmitsTwoSpacedPulses :
    ControlInv ready ∧ canRun ready ∧ ready.DSTATE = .ready ∧ (0x01#8 : Byte) ∈ ready.cfg.cmds.LONG_EXEC_CMDS :=
  ⟨witness_ready_control, witness_ready_can_run.1, rfl, by decide⟩

/-- Each reserved row at the first and last payload it has. -/
theorem witness_IllegalRequestChangesNothing :
    canRun faulted ∧
    ∀ i ∈ [Instr.illegalOp000 0x00, .illegalOp000 0xFF, .illegalInitRsvd 0x08, .illegalInitRsvd 0xFF,
        .illegalReleasePayload 0x01, .illegalReleasePayload 0xFF, .illegalOp101 0x00, .illegalOp110 0x00,
        .illegalOp111 0xFF], i.wf = true ∧ ∃ w, encode i = .request w := by
  refine ⟨by simp [canRun, resetStaysLow, faulted, idle, State.reset, Ports.quiet], ?_⟩
  intro i h
  simp only [List.mem_cons, List.not_mem_nil, or_false] at h
  rcases h with rfl | rfl | rfl | rfl | rfl | rfl | rfl | rfl | rfl <;> exact ⟨rfl, _, rfl⟩

theorem witness_ReleaseWithABindingLetsTheLinesGoLow : canRun ready ∧ ready.OE = true :=
  ⟨witness_ready_can_run.1, rfl⟩

theorem witness_ReleaseWithoutABindingTouchesNoLine : canRun idle ∧ idle.OE = false :=
  ⟨witness_idle_can_run.1, rfl⟩

/-- With and without an old binding. -/
theorem witness_InitSucceedsAndSendsTheSequence :
    (canRun idle ∧ idle.ports.BIND_OK = true ∧ idle.ports.TIMING_OK = true ∧ idle.OE = false) ∧
    (canRun ready ∧ ready.ports.BIND_OK = true ∧ ready.ports.TIMING_OK = true ∧ ready.OE = true) :=
  ⟨⟨witness_idle_can_run.1, rfl, rfl, rfl⟩, ⟨witness_ready_can_run.1, rfl, rfl, rfl⟩⟩

theorem witness_InitGapsMeetTheirFloors :
    (canRun idle ∧ idle.ports.BIND_OK = true ∧ idle.ports.TIMING_OK = true) ∧
    (canRun ready ∧ ready.ports.BIND_OK = true ∧ ready.ports.TIMING_OK = true) :=
  ⟨⟨witness_idle_can_run.1, rfl, rfl⟩, ⟨witness_ready_can_run.1, rfl, rfl⟩⟩

/-- Each prerequisite alone missing, with a binding; and both, without one. -/
theorem witness_InitFailsIntoFaulted :
    (canRun noBinding ∧ noBinding.ports.BIND_OK = false ∧ noBinding.OE = true) ∧
    (canRun noTiming ∧ noTiming.ports.BIND_OK = true ∧ noTiming.ports.TIMING_OK = false) ∧
    (canRun State.reset ∧ State.reset.ports.BIND_OK = false ∧ State.reset.OE = false) := by
  simp [canRun, resetStaysLow, noBinding, noTiming, ready, idle, State.reset, Ports.quiet]

/-- One request for each status. -/
theorem witness_EveryRequestCompletesWithItsStatus :
    requestStatus 0x348 ready = .ok ∧ requestStatus 0x348 idle = .notReady ∧
    requestStatus 0x100 noBinding = .pinUnavailable ∧ requestStatus 0x100 noTiming = .timingPrereq ∧
    requestStatus 0x108 faulted = .illegalRequest ∧ requestStatus 0x400 faulted = .ok ∧
    (Instr.data 0x48).wf = true ∧ encode (.data 0x48) = .request 0x348 ∧ canRun ready :=
  ⟨by decide, by decide, by decide, by decide, by decide, by decide, rfl, rfl, witness_ready_can_run.1⟩

theorem witness_FailedRequestEmitsNoPulse :
    (Instr.init false false false).wf = true ∧ encode (.init false false false) = .request 0x100 ∧
    canRun noBinding ∧ requestStatus 0x100 noBinding ≠ .ok ∧ requestStatus 0x100 noTiming ≠ .ok := by
  refine ⟨rfl, rfl, ?_, by decide, by decide⟩
  simp [canRun, resetStaysLow, noBinding, ready, idle, State.reset, Ports.quiet]

theorem witness_RequestsKeepTheNibblePairing :
    (Instr.data 0x48).wf = true ∧ encode (.data 0x48) = .request 0x348 ∧ opField 0x348 ≠ 0b001#3 ∧
    ControlInv ready ∧ canRun ready := ⟨rfl, rfl, by decide, witness_ready_control, witness_ready_can_run.1⟩

theorem witness_RequestsTakeAtLeastTheirMinimumDuration :
    canRun ready ∧ ready.cfg.timing.ordered = true ∧ ready.DSTATE = .ready ∧ ready.ports.BIND_OK = true ∧
    ready.ports.TIMING_OK = true := ⟨witness_ready_can_run.1, by decide, rfl, rfl, rfl⟩

theorem witness_OnlyInitReadsBindingInputsAndConfiguration :
    (Instr.release).isRequest = true ∧ ∀ x y z, Instr.release ≠ .init x y z := ⟨rfl, by simp⟩

theorem witness_WakeTransferIsOnePulseOfThree :
    ∀ i ∈ [InitStep.wake1, .wake2, .wake3], { ready with ISTEP := i }.ports.RESET = false ∧
      (i = .wake1 ∨ (i = .wake2 ∨ i = .wake3)) := by decide

theorem witness_Mode4TransferIsOnePulseOfTwo : ready.ports.RESET = false := rfl
theorem witness_InitByteTransfersSendTheirBytes : initAtRise.ports.RESET = false := rfl
theorem witness_CommandAndDataTransfersSendTheirByte : ready.ports.RESET = false := rfl

theorem witness_SequencerStepsAreTheDisplayTransfer :
    let s := ready.withFetchWord 9 0x148
    (Instr.lcdData 0x48).isRequest = false ∧ s.BUSY = true ∧ resetStaysLow s ∧
      s.PROG.drop s.upc = displayProgram (.lcdData 0x48) s ++ [.complete .ok] := by
  refine ⟨rfl, rfl, ⟨rfl, ?_⟩, by decide⟩
  intro p h; cases h

theorem witness_NoTransferDuringReset : (Instr.lcdWake).isRequest = false ∧ inReset.ports.RESET = true := ⟨rfl, rfl⟩

/-- A pseudo-request's byte, and one that is none. -/
theorem witness_DecodeOfEncodeIsTheInstruction :
    (Instr.cmd 0x01).wf = true ∧ (Instr.cmd 0x01).canon = .clear ∧ (Instr.cmd 0x04).canon = .cmd 0x04 ∧
    (∀ p, Instr.lcdDispon true true ≠ .cmd p) ∧ (∀ p, Instr.lcdDispon true true ≠ .lcdCmd p) :=
  ⟨rfl, by decide, by decide, by simp, by simp⟩

theorem witness_EncodeOfDecodeIsTheWord :
    decode (.request 0x401) = .ok (.illegalReleasePayload 0x01) ∧ decode (.nibble false 0x3) = .ok .lcdWake ∧
    decode (.byte false 0x2C) = .ok (.lcdFuncset true) := ⟨rfl, rfl, rfl⟩

theorem witness_NamesOfOneWordHaveOneEffect :
    (Instr.cmd 0x8F).wf = true ∧ (Instr.cmd 0x8F).isRequest = true ∧ (Instr.lcdCmd 0x0F).wf = true ∧
    ready.cfg.cmds = .default := ⟨rfl, rfl, rfl, rfl⟩

theorem witness_LineLevelsFollowTheBinding :
    ready.OE = true ∧ (released.OE = false ∧ released.REL = true) ∧ (idle.OE = false ∧ idle.REL = false) :=
  ⟨rfl, ⟨rfl, rfl⟩, rfl, rfl⟩

theorem witness_initAtRise_control : ControlInv initAtRise := by
  refine ⟨fun _ => by decide, ?_, ?_, fun _ _ => by decide⟩ <;> intro h <;> cases h

theorem witness_EveryStepKeepsTheControlInvariant : ControlInv initAtRise ∧ ∃ t, step initAtRise = .next t :=
  ⟨witness_initAtRise_control, _, rfl⟩

theorem witness_ControlInvariantStatesAlwaysStep : ControlInv ready ∧ ControlInv initAtRise :=
  ⟨witness_ready_control, witness_initAtRise_control⟩

/-- A step that changes DSTATE: INIT's last but one. -/
theorem witness_DisplayStateMovesOnlyAsListed :
    let s := { initAtRise with PROG := [.setState .ready, .complete .ok] }
    ControlInv s ∧ s.ports.RESET = false ∧ ∃ t, step s = .next t ∧ t.DSTATE = .ready := by
  refine ⟨⟨fun _ => by decide, ?_, ?_, fun _ _ => by decide⟩, rfl, _, rfl, rfl⟩ <;> intro h <;> cases h

/-- A step into Initializing, and a step out of it, to a block that is busy, and one to a block that is idle. -/
theorem witness_InitializingMeansAnInitInFlight :
    let s := { ready with BUSY := true, CUR := 0x100, upc := 0,
                          PROG := [.setState .initializing, .release, .setState .faulted, .complete .pinUnavailable] }
    (ControlInv s ∧ ∃ t, step s = .next t ∧ t.DSTATE = .initializing) ∧
    (ControlInv ready ∧ ∃ t, step ready = .next t ∧ t.BUSY = false) := by
  refine ⟨⟨⟨fun _ => by decide, ?_, ?_, fun _ _ => by decide⟩, _, rfl, rfl⟩, witness_ready_control, _, rfl, rfl⟩ <;>
    intro h <;> cases h

/-- A rise in Ready, inside a DATA, and a rise inside an INIT. -/
theorem witness_EnableRisesOnlyInReadyOrInsideInit :
    let s := { busyAt .enHigh with RS := true, PROG := [.enHigh, .enLow, .complete .ok] }
    (ControlInv s ∧ s.E = false ∧ ∃ t, step s = .next t ∧ t.E = true) ∧
    (ControlInv initAtRise ∧ initAtRise.E = false ∧ ∃ t, step initAtRise = .next t ∧ t.E = true) := by
  refine ⟨⟨⟨fun _ => by decide, ?_, ?_, ?_⟩, rfl, _, rfl, rfl⟩, witness_initAtRise_control, rfl, _, rfl, rfl⟩
  · intro h; cases h
  · intro h; cases h
  · intro _ h; revert h; decide

theorem witness_EveryStepKeepsTheTimingInvariant :
    ControlInv ready ∧ TimingInv ready ∧ ∃ t, step ready = .next t :=
  ⟨witness_ready_control, witness_ready_timing, _, rfl⟩

/-- A read past the end of a text that was cut, and of one of 32 bytes. -/
theorem witness_WriteThenReadReturnsTheTextKept :
    (clientWrite true (List.replicate 33 0x41#8) .start).accepted ≤ 32 ∧
    (clientWrite false (List.replicate 32 0x41#8) .start).accepted ≤ 32 ∧ (clientWrite true [] .start).accepted ≤ 0 := by
  decide

theorem witness_HostErrorsAreTheBlocksStatuses :
    ((true : Bit) = true ↔ ready.DSTATE = .ready) ∧ ((false : Bit) = true ↔ idle.DSTATE = .ready) := by decide

/-- A byte transfer of a bound block, E high and low; CMD and DATA in Ready. -/
theorem witness_DataLinesCarryTheByteLowBitFirst :
    ready.OE = true ∧ ready.E = false ∧
    (perform ((byteTransfer .default 0x48 true 0).take 3) ready).E = true ∧
    (perform ((byteTransfer .default 0x48 true 0).take 10) ready).E = true ∧
    ControlInv ready ∧ canRun ready ∧ ready.DSTATE = .ready :=
  ⟨rfl, rfl, rfl, rfl, witness_ready_control, witness_ready_can_run.1, rfl⟩

/-- The columns where the clauses meet. -/
theorem witness_SetCursorChecksItsColumn :
    ((0 : Int) = (0 : Nat) ∧ 0 < 16) ∧ ((15 : Int) = (15 : Nat) ∧ 15 < 16) ∧
    ((16 : Int) < 0 ∨ (16 : Int) ≤ 16) ∧ ((-1 : Int) < 0 ∨ (16 : Int) ≤ -1) := by decide

/-- Line 0 with and without a wrap, from its last column and past it. -/
theorem witness_PrintSendsWhatFitsInOrder :
    15 ≤ 16 ∧ 16 - 15 < [0x41#8, 0x42#8].length ∧ ¬ 16 - 15 < [0x41#8].length ∧ 16 ≤ 16 ∧ 16 - 16 < [0x41#8].length := by
  decide

theorem witness_AssemblerExpandsThePseudoRequests :
    (2 ≤ 2 ∨ 16 ≤ 0) ∧ (2 ≤ 0 ∨ 16 ≤ 16) ∧ ['H', '~', ' '].all printable = true := by decide

end Sys2Proof.Tests
end

/-! Time out of reset (R15, R16): what each kind of step does to `now`. A request word decodes to a request, and a
request answers its acceptance, so that a step of an idle block takes no time. -/
namespace Sys2Proof.Machine

/-! ### A request word answers an acceptance -/

theorem decodeCommand_isRequest (p : Byte) : (decodeCommand p).isRequest = true := by
  unfold decodeCommand
  repeat' split
  all_goals rfl

theorem decodeInit_isRequest (p : Byte) : (decodeInit p).isRequest = true := by
  unfold decodeInit
  split <;> rfl

theorem decodeRelease_isRequest (p : Byte) : (decodeRelease p).isRequest = true := by
  unfold decodeRelease
  split <;> rfl

/-- R70: whatever the word, the decoder names a request, never a display transfer. -/
@[simp] theorem decodeRequest_isRequest (w : ReqWord) : (decodeRequest w).isRequest = true := by
  simp only [decodeRequest]
  split
  · exact decodeInit_isRequest _
  split
  · exact decodeCommand_isRequest _
  split
  · rfl
  split
  · exact decodeRelease_isRequest _
  repeat' split
  all_goals rfl

/-- R77: what a request does at once is its acceptance. -/
theorem exec_eq_accept {i : Instr} (h : i.isRequest = true) (s : State) :
    ∃ w prog, exec i s = .next (accept w prog s) := by
  cases i
  case lcdWake | lcdMode4 | lcdFuncset | lcdDispoff | lcdClear | lcdEntry | lcdDispon | lcdCmd | lcdData => cases h
  all_goals exact ⟨_, _, rfl⟩

/-! ### The time -/

/-- R77: acceptance takes no time, and neither does holding a request (R24). -/
@[simp] theorem accept_now (w : ReqWord) (prog : List MicroOp) (s : State) : (accept w prog s).now = s.now := by
  unfold accept
  split
  · exact accepted_now w prog s
  · rfl

/-- R79, R83: a micro-operation takes no time unless it is a `Wait`, which takes at least its floor. -/
theorem microOpDrawn_now (op : MicroOp) (s : State) :
    (microOpDrawn op s).now = s.now ∨ ∃ tmin, op = .wait tmin ∧ s.now + tmin ≤ (microOpDrawn op s).now := by
  cases op
  case wait tmin =>
    refine .inr ⟨tmin, rfl, ?_⟩
    rw [microOpDrawn_wait, opWait_now]
    omega
  all_goals exact .inl rfl

/-- Settles O10, by the four kinds of step: only a micro-operation can take time. -/
theorem onlyWaitAdvancesTime : Obligations.OnlyWaitAdvancesTime := by
  intro s t hr h
  obtain ⟨hr', -⟩ | ⟨-, hb, op, hop, rfl⟩ | ⟨-, -, -, u, hu, rfl⟩ | ⟨-, -, -, rfl⟩ := step_cases h
  · cases hr.symm.trans hr'
  · rw [nextInputs_now, nextUpc_now]
    obtain hnow | ⟨tmin, rfl, hfloor⟩ := microOpDrawn_now op s
    · exact .inl hnow
    · exact .inr ⟨hb, tmin, hop, hfloor⟩
  · obtain ⟨w, prog, he⟩ := exec_eq_accept (decodeRequest_isRequest s.ports.REQ) s
    rw [he] at hu
    injection hu with hu
    rw [nextInputs_now, ← hu, accept_now]
    exact .inl rfl
  · exact .inl (nextInputs_now false s)

end Sys2Proof.Machine

/-! The control invariant (R33 to R36, R42, R90, R99). Every request an idle block accepts has a safe program, and the
first micro-operation of a safe program leaves the rest of it safe; so a step keeps the invariant, moves DSTATE only
as R33 lists and always finds a micro-operation. -/
namespace Sys2Proof.Machine

open Sys2Proof.Safety

/-! ### What the idle block promises -/

/-- R34, R35, R36: the three parts of `idleSafe`. -/
theorem idleSafe_iff {ds : DisplayState} {oe e : Bit} :
    idleSafe ds oe e = true ↔ ds ≠ .initializing ∧ e = false ∧ (oe = true ↔ ds = .ready) := by
  cases ds <;> cases oe <;> cases e <;> decide

/-! ### The programs of requests are safe -/

@[simp] theorem opField_initWord (f c b : Bit) : opField (initWord f c b) = 0b001#3 := opField_requestWord ..
@[simp] theorem opField_cmdWord (p : Byte) : opField (cmdWord p) = 0b010#3 := opField_requestWord ..
@[simp] theorem opField_dataWord (p : Byte) : opField (dataWord p) = 0b011#3 := opField_requestWord ..
@[simp] theorem opField_releaseWord : opField releaseWord = 0b100#3 := opField_requestWord ..

section safe
variable {op : BitVec 3} {s : State}

/-- R95: a request that completes at once is safe for any OP. -/
theorem safeProgram_turnedAway (st : Status) {rs : Bit} {ds : DisplayState} {oe e : Bit}
    (h : idleSafe ds oe e = true) : safeProgram op (turnedAway st) ds oe e rs = true := by
  simpa [turnedAway, safeProgram] using h

/-- R93, R95, R96, R97: an idle block in Ready is bound, so a byte sent with the RS of its request is safe there; in
any other state the request completes at once. -/
theorem safeProgram_sendInReady (T : Timing) (b : Byte) (tpost : Nat) (hop : mayPulse op .ready = true)
    (h : idleSafe s.DSTATE s.OE s.E = true) :
    safeProgram op
      (if s.DSTATE = .ready then byteTransfer T b (requestRs op) tpost ++ [.complete .ok] else turnedAway .notReady)
      s.DSTATE s.OE s.E s.RS = true := by
  split
  next hready =>
    obtain ⟨-, he, hoe⟩ := idleSafe_iff.1 h
    rw [he, hoe.2 hready, hready, safeProgram_byteTransfer _ _ _ _ _ _ _ hop]
    rfl
  next => exact safeProgram_turnedAway _ h

theorem safeProgram_progCmd (p : Byte) (h : idleSafe s.DSTATE s.OE s.E = true) :
    safeProgram 0b010#3 (progCmd p s) s.DSTATE s.OE s.E s.RS = true :=
  safeProgram_sendInReady (op := 0b010#3) _ _ _ rfl h

theorem safeProgram_progData (p : Byte) (h : idleSafe s.DSTATE s.OE s.E = true) :
    safeProgram 0b011#3 (progData p s) s.DSTATE s.OE s.E s.RS = true :=
  safeProgram_sendInReady (op := 0b011#3) _ _ _ rfl h

/-- R120: the lines are let go where they are driven, and the block ends unbound. -/
theorem safeProgram_progRelease (h : idleSafe s.DSTATE s.OE s.E = true) :
    safeProgram op (progRelease s) s.DSTATE s.OE s.E s.RS = true := by
  obtain ⟨hinit, he, -⟩ := idleSafe_iff.1 h
  cases hoe : s.OE <;> simp [progRelease, safeProgram, legalTransition, idleSafe, hoe, hinit, he]

/-- R100, R101: INIT begins by entering Initializing and letting an old binding go. -/
theorem safeProgram_initBegin (rest : List MicroOp) {ds : DisplayState} {oe e : Bit} (rs : Bit)
    (h : idleSafe ds oe e = true) :
    safeProgram 0b001#3 (initBegin oe ++ rest) ds oe e rs =
      safeProgram 0b001#3 rest .initializing false false (!oe && rs) := by
  obtain ⟨hinit, rfl, -⟩ := idleSafe_iff.1 h
  cases oe <;> simp [initBegin, safeProgram, legalTransition, hinit]

/-- R102: the entry into Faulted is safe where nothing is bound. -/
theorem safeProgram_faultEntry (st : Status) (rs : Bit) :
    safeProgram op (faultEntry st) .initializing false false rs = true := by
  simp [faultEntry, safeProgram, legalTransition, idleSafe]

theorem safeProgram_initNibble (T : Timing) (v : Nibble) (tpost : Nat) (rest : List MicroOp) (rs : Bit) :
    safeProgram 0b001#3 (nibbleTransfer T v false tpost ++ rest) .initializing true false rs =
      safeProgram 0b001#3 rest .initializing true false false :=
  safeProgram_nibbleTransfer 0b001#3 T tpost rest .initializing rs v rfl

theorem safeProgram_initByte (T : Timing) (b : Byte) (tpost : Nat) (rest : List MicroOp) (rs : Bit) :
    safeProgram 0b001#3 (byteTransfer T b false tpost ++ rest) .initializing true false rs =
      safeProgram 0b001#3 rest .initializing true false false :=
  safeProgram_byteTransfer 0b001#3 T tpost rest .initializing rs b rfl

/-- R106, R107: the sequence pulses with RS = 0 and leaves the block Initializing and bound. -/
theorem safeProgram_initSequence (P : Params) (f c b : Bit) (rest : List MicroOp) (rs : Bit) :
    safeProgram 0b001#3 (initSequence P f c b ++ rest) .initializing true false rs =
      safeProgram 0b001#3 rest .initializing true false false := by
  simp only [initSequence, initWakeUp, initConfigure, List.append_assoc, List.cons_append, List.nil_append,
    safeProgram, safeProgram_initNibble, safeProgram_initByte]

theorem safeProgram_progInit (f c b : Bit) (h : idleSafe s.DSTATE s.OE s.E = true) :
    safeProgram 0b001#3 (progInit f c b s) s.DSTATE s.OE s.E s.RS = true := by
  unfold progInit
  split
  · rw [safeProgram_initBegin _ _ h]
    exact safeProgram_faultEntry _ _
  split
  · rw [safeProgram_initBegin _ _ h]
    exact safeProgram_faultEntry _ _
  · simp only [List.append_assoc, safeProgram_initBegin _ _ h]
    simp [safeProgram, safeProgram_initSequence, legalTransition, idleSafe]

/-- R70, R77: whatever request an idle block is given, what it accepts is safe. -/
theorem exec_accepts_safeProgram {i : Instr} (hi : i.isRequest = true) (h : idleSafe s.DSTATE s.OE s.E = true) :
    ∃ w prog, exec i s = .next (accept w prog s) ∧
      safeProgram (opField w) prog s.DSTATE s.OE s.E s.RS = true := by
  have hcmd (p : Byte) : safeProgram (opField (cmdWord p)) (progCmd p s) s.DSTATE s.OE s.E s.RS = true := by
    rw [opField_cmdWord]
    exact safeProgram_progCmd p h
  cases i
  case lcdWake | lcdMode4 | lcdFuncset | lcdDispoff | lcdClear | lcdEntry | lcdDispon | lcdCmd | lcdData => cases hi
  case init f c b => exact ⟨_, _, rfl, by rw [opField_initWord]; exact safeProgram_progInit f c b h⟩
  case data p => exact ⟨_, _, rfl, by rw [opField_dataWord]; exact safeProgram_progData p h⟩
  case release => exact ⟨_, _, rfl, safeProgram_progRelease h⟩
  case cmd | clear | home | setpos0 | setpos1 | shiftl | shiftr => exact ⟨_, _, rfl, hcmd _⟩
  case illegalOp000 | illegalInitRsvd | illegalReleasePayload | illegalOp101 | illegalOp110 | illegalOp111 =>
    exact ⟨_, _, rfl, safeProgram_turnedAway _ h⟩

end safe

/-! ### The first micro-operation of a safe program -/

section firstOp
variable {op : BitVec 3} {o : MicroOp} {rest : List MicroOp} {s : State}

/-- R42, R78: `Complete` leaves the block as it is between requests; any other micro-operation leaves the rest of the
program safe. -/
theorem safeProgram_afterFirst (h : safeProgram op (o :: rest) s.DSTATE s.OE s.E s.RS = true) :
    (∃ st, o = .complete st ∧ idleSafe s.DSTATE s.OE s.E = true) ∨
    ((∀ st, o ≠ .complete st) ∧ safeProgram op rest (microOpDrawn o s).DSTATE (microOpDrawn o s).OE
      (microOpDrawn o s).E (microOpDrawn o s).RS = true) := by
  cases o
  case complete st =>
    simp only [safeProgram, Bool.and_eq_true] at h
    exact .inl ⟨st, rfl, h.2⟩
  case wait | step | latch => exact .inr ⟨by simp, h⟩
  case drive | enHigh | enLow | bind | release | setState =>
    simp only [safeProgram, Bool.and_eq_true] at h
    exact .inr ⟨by simp, h.2⟩

/-- R33, R34: a safe program moves DSTATE only along a listed transition, to Initializing by INIT alone. -/
theorem safeProgram_firstMovesDstate (h : safeProgram op (o :: rest) s.DSTATE s.OE s.E s.RS = true) :
    (microOpDrawn o s).DSTATE = s.DSTATE ∨
    (legalTransition s.DSTATE (microOpDrawn o s).DSTATE = true ∧
      ((microOpDrawn o s).DSTATE = .initializing → op = 0b001#3)) := by
  cases o
  case setState d =>
    simp only [safeProgram, Bool.and_eq_true, Bool.or_eq_true, bne_iff_ne, beq_iff_eq] at h
    obtain ⟨⟨hlegal, hinit⟩, -⟩ := h
    exact .inr ⟨hlegal, fun hd => hinit.resolve_left (absurd hd)⟩
  all_goals exact .inl rfl

/-- R36, R84, R85, R90: a safe program touches the lines only while they are driven, and lets them go low. -/
theorem safeProgram_firstKeepsUnboundLow (h : safeProgram op (o :: rest) s.DSTATE s.OE s.E s.RS = true)
    (hlow : s.OE = false → linesLow s) : (microOpDrawn o s).OE = false → linesLow (microOpDrawn o s) := by
  cases o
  case drive | enHigh | enLow =>
    have hbound : s.OE = true := by
      simp only [safeProgram, Bool.and_eq_true] at h
      simp only [h]
    exact fun hoe => by cases hbound.symm.trans hoe
  case bind => intro hoe; cases hoe
  case release => exact fun _ => ⟨rfl, rfl, rfl⟩
  all_goals exact hlow

end firstOp

/-! ### What keeps the invariant -/

/-- R24: when REQ_READY is 1. -/
theorem reqReady_iff (s : State) : s.reqReady = true ↔ s.BUSY = false ∧ s.ports.RESET = false := by
  simp [State.reqReady]

/-- R77: acceptance moves DSTATE nowhere. -/
@[simp] theorem accept_DSTATE (w : ReqWord) (prog : List MicroOp) (s : State) :
    (accept w prog s).DSTATE = s.DSTATE := by
  unfold accept
  split
  · exact accepted_DSTATE w prog s
  · rfl

section invariant
variable {s : State}

/-- The invariant does not speak of the inputs. -/
theorem controlInv_nextInputs (taken : Bool) (h : ControlInv s) : ControlInv (nextInputs taken s) := by
  obtain ⟨hflight, hidle, hunbound, hinit⟩ := h
  constructor <;> simpa [linesLow]

/-- R46, R149: a reset block is idle and unbound, with every line low. -/
theorem controlInv_resetBlock (s : State) : ControlInv (resetBlock s) where
  inFlight h := by cases h
  idle _ := rfl
  unbound _ := ⟨rfl, rfl, rfl⟩
  initializing h := by cases h

/-- R77: an idle block that accepts a safe program keeps the invariant; a held request changes nothing (R24). -/
theorem controlInv_accept {w : ReqWord} {prog : List MicroOp} (h : ControlInv s)
    (hprog : safeProgram (opField w) prog s.DSTATE s.OE s.E s.RS = true) : ControlInv (accept w prog s) := by
  unfold accept
  split
  next hready =>
    have hb : s.BUSY = false := ((reqReady_iff s).1 hready).1
    exact {
      inFlight := fun _ => hprog
      idle := fun hbusy => by cases hbusy
      unbound := h.unbound
      initializing := fun _ hd => absurd hd (idleSafe_iff.1 (h.idle hb)).1 }
  next => exact h

/-- R42: a program in flight goes on with the micro-operation at `upc`. -/
theorem controlInv_safeFromUpc {o : MicroOp} (h : ControlInv s) (hb : s.BUSY = true) (ho : s.PROG[s.upc]? = some o) :
    safeProgram (opField s.CUR) (o :: s.PROG.drop (s.upc + 1)) s.DSTATE s.OE s.E s.RS = true := by
  obtain ⟨hlt, rfl⟩ := List.getElem?_eq_some_iff.1 ho
  rw [← List.drop_eq_getElem_cons hlt]
  exact h.inFlight hb

/-- R78: performing the micro-operation at `upc` keeps the invariant. -/
theorem controlInv_microOp {o : MicroOp} (h : ControlInv s) (hb : s.BUSY = true) (ho : s.PROG[s.upc]? = some o) :
    ControlInv (nextUpc (microOpDrawn o s)) := by
  have hsafe := controlInv_safeFromUpc h hb ho
  have hkeep := microOpDrawn_keepsRequest o s
  have hunbound := safeProgram_firstKeepsUnboundLow hsafe h.unbound
  obtain ⟨st, rfl, hidle⟩ | ⟨hcomplete, hrest⟩ := safeProgram_afterFirst hsafe
  · exact {
      inFlight := fun hbusy => by cases hbusy
      idle := fun _ => hidle
      unbound := hunbound
      initializing := fun hbusy => by cases hbusy }
  · have hbusy := (microOpDrawn_BUSY hcomplete s).trans hb
    exact {
      inFlight := fun _ => by simpa [hkeep.CUR, hkeep.PROG, hkeep.upc] using hrest
      idle := fun hidle => by cases hbusy.symm.trans hidle
      unbound := hunbound
      initializing := fun _ hd => by
        simp only [nextUpc_DSTATE, nextUpc_CUR, hkeep.CUR] at hd ⊢
        obtain hsame | ⟨-, hinit⟩ := safeProgram_firstMovesDstate hsafe
        · exact h.initializing hb (hsame.symm.trans hd)
        · exact hinit hd }

end invariant

/-- Settles O43, by the four kinds of step: what an idle block accepts is safe, and what the sequencer performs leaves
the rest of its program safe. -/
theorem everyStepKeepsTheControlInvariant : Obligations.EveryStepKeepsTheControlInvariant := by
  intro s t h hstep
  obtain ⟨-, rfl⟩ | ⟨-, hb, o, ho, rfl⟩ | ⟨-, hb, -, u, hu, rfl⟩ | ⟨-, -, -, rfl⟩ := step_cases hstep
  · exact controlInv_nextInputs _ (controlInv_resetBlock s)
  · exact controlInv_nextInputs _ (controlInv_microOp h hb ho)
  · obtain ⟨w, prog, hexec, hsafe⟩ := exec_accepts_safeProgram (decodeRequest_isRequest s.ports.REQ) (h.idle hb)
    cases hu.symm.trans hexec
    exact controlInv_nextInputs _ (controlInv_accept h hsafe)
  · exact controlInv_nextInputs _ h

/-- Settles O44: a safe program is never empty, so the sequencer finds its micro-operation. -/
theorem controlInvariantStatesAlwaysStep : Obligations.ControlInvariantStatesAlwaysStep := by
  intro s h
  unfold step
  split
  · exact ⟨_, rfl⟩
  split
  next hb =>
    cases ho : s.PROG[s.upc]? with
    | some o => simp [sequencerStep, ho]
    | none =>
      have hflight := h.inFlight hb
      rw [List.drop_eq_nil_of_le (List.getElem?_eq_none_iff.1 ho)] at hflight
      cases hflight
  next =>
    split
    · obtain ⟨u, hu⟩ := exec_answers (decodeRequest s.ports.REQ) s
      rw [hu]
      exact ⟨_, rfl⟩
    · exact ⟨_, rfl⟩

/-- R33: out of reset, DSTATE stays or makes a listed transition. -/
theorem step_movesDstateAsListed {s t : State} (h : ControlInv s) (hr : s.ports.RESET = false)
    (hstep : step s = .next t) : t.DSTATE = s.DSTATE ∨ legalTransition s.DSTATE t.DSTATE = true := by
  obtain ⟨hr', -⟩ | ⟨-, hb, o, ho, rfl⟩ | ⟨-, -, -, u, hu, rfl⟩ | ⟨-, -, -, rfl⟩ := step_cases hstep
  · cases hr.symm.trans hr'
  · rw [nextInputs_DSTATE, nextUpc_DSTATE]
    exact (safeProgram_firstMovesDstate (controlInv_safeFromUpc h hb ho)).imp_right And.left
  · obtain ⟨w, prog, hexec⟩ := exec_eq_accept (decodeRequest_isRequest s.ports.REQ) s
    cases hu.symm.trans hexec
    exact .inl ((nextInputs_DSTATE ..).trans (accept_DSTATE ..))
  · exact .inl (nextInputs_DSTATE ..)

/-- Settles O45: Ready to Faulted is neither staying nor a listed transition. -/
theorem displayStateMovesOnlyAsListed : Obligations.DisplayStateMovesOnlyAsListed := by
  intro s t h hr hstep
  have hmove := step_movesDstateAsListed h hr hstep
  refine ⟨hmove, fun ⟨hs, ht⟩ => ?_⟩
  rw [hs, ht] at hmove
  revert hmove
  decide

/-- Settles O46: the state after the step has the control invariant, whose idle part rules out Initializing. -/
theorem initializingMeansAnInitInFlight : Obligations.InitializingMeansAnInitInFlight := by
  intro s t h hstep
  have ht := everyStepKeepsTheControlInvariant s t h hstep
  have hne (hb : t.BUSY = false) : t.DSTATE ≠ .initializing := (idleSafe_iff.1 (ht.idle hb)).1
  constructor
  · intro hb
    cases hd : t.DSTATE
    case initializing => exact absurd hd (hne hb)
    all_goals decide
  · intro hd
    have hb : t.BUSY = true := by
      cases hb : t.BUSY
      · exact absurd hd (hne hb)
      · rfl
    exact ⟨hb, ht.initializing hb hd⟩

/-- Settles O42: the reset state is a reset block. -/
theorem controlInvariantHoldsAtReset : Obligations.ControlInvariantHoldsAtReset :=
  controlInv_resetBlock State.reset

/-! ### Reset and the outputs -/

/-- Settles O48: the trace is empty and nothing is bound or in flight. -/
theorem timingInvariantHoldsAtReset : Obligations.TimingInvariantHoldsAtReset where
  trace := rfl
  last := fun r h => by cases h
  first := fun _ => rfl
  bound := fun h => by cases h
  inFlight := fun h => by cases h
  idle := fun _ => rfl

/-- Settles O1, element by element. -/
theorem resetStateHasTheSpecValues : Obligations.ResetStateHasTheSpecValues := by
  unfold Obligations.ResetStateHasTheSpecValues
  decide

/-- Settles O39: the codes listed are those the functions compute. -/
theorem outputCodesAreThoseOfTheRules : Obligations.OutputCodesAreThoseOfTheRules := ⟨rfl, rfl, rfl⟩

section lines
variable {s : State} (k : Nat) (l : Line)

theorem lineLevel_of_driven (h : s.OE = true) : s.lineLevel k l = .ofBit (s.lineRegister l) := by
  simp [State.lineLevel, h]

theorem lineLevel_of_released (hoe : s.OE = false) (hrel : s.REL = true) : s.lineLevel k l = .low := by
  simp [State.lineLevel, hoe, hrel]

theorem lineLevel_of_neverBound (hoe : s.OE = false) (hrel : s.REL = false) :
    s.lineLevel k l = Config.unboundLevel k l := by
  simp [State.lineLevel, hoe, hrel]

end lines

/-- Settles O40, by the three cases of R31. -/
theorem lineLevelsFollowTheBinding : Obligations.LineLevelsFollowTheBinding :=
  fun k _ =>
    ⟨fun h => ⟨lineLevel_of_driven k _ h, lineLevel_of_driven k _ h, fun _ => lineLevel_of_driven k _ h⟩,
      fun hoe hrel l => lineLevel_of_released k l hoe hrel,
      fun hoe hrel l => lineLevel_of_neverBound k l hoe hrel⟩

/-! ### Requests held, and what acceptance reads -/

/-- R24: a request that is not taken is held. -/
theorem accept_of_notReady {s : State} (h : s.reqReady = false) (w : ReqWord) (prog : List MicroOp) :
    accept w prog s = s := by
  simp [accept, h]

/-- Log 4: an exhausted script holds the inputs. -/
theorem nextInputs_ports_of_exhausted {s : State} (h : s.script = []) : (nextInputs false s).ports = s.ports := by
  simp [nextInputs, h]

/-- Settles O5: presented to a block that is not ready, a request is held by `accept`; in a busy block's step the
micro-operation leaves the ports and the script alone. -/
theorem requestPresentedWhileNotReadyIsHeld : Obligations.RequestPresentedWhileNotReadyIsHeld := by
  refine fun s => ⟨reqReady_iff s, fun i hi => ⟨fun hready => ?_, fun hr hb hscript t hstep => ?_⟩⟩
  · obtain ⟨w, prog, hexec⟩ := exec_eq_accept hi s
    rw [hexec, accept_of_notReady hready]
  · obtain ⟨hr', -⟩ | ⟨-, -, o, -, rfl⟩ | ⟨-, hb', -⟩ | ⟨-, hb', -⟩ := step_cases hstep
    · cases hr.symm.trans hr'
    · have hkeep := microOpDrawn_keepsRequest o s
      have hexhausted : (nextUpc (microOpDrawn o s)).script = [] := hkeep.script.trans hscript
      rw [nextInputs_ports_of_exhausted hexhausted, nextUpc_ports, hkeep.ports]
    · cases hb.symm.trans hb'
    · cases hb.symm.trans hb'

/-- A change of the state that REQ_READY does not see, and that stays clear of what acceptance writes, can be made
before or after it. -/
theorem accept_commutes {g : State → State} {w : ReqWord} {prog : List MicroOp} {s : State}
    (hready : (g s).reqReady = s.reqReady) (haccepted : accepted w prog (g s) = g (accepted w prog s)) :
    accept w prog (g s) = g (accept w prog s) := by
  unfold accept
  rw [hready]
  split
  · exact haccepted
  · rfl

/-- Settles O27: no program but INIT's is computed from the inputs and registers that are changed. -/
theorem onlyInitReadsBindingInputsAndConfiguration : Obligations.OnlyInitReadsBindingInputsAndConfiguration := by
  intro i bindOk timingOk f c b s hi hinit other
  cases i
  case lcdWake | lcdMode4 | lcdFuncset | lcdDispoff | lcdClear | lcdEntry | lcdDispon | lcdCmd | lcdData => cases hi
  case init x y z => exact absurd rfl (hinit x y z)
  all_goals exact congrArg Host.Outcome.next (accept_commutes (g := other) rfl rfl)

end Sys2Proof.Machine

/-! Bytes on the lines (R50 to R54, R92 to R97). A byte transfer raises E twice, over the high and then the low nibble,
so that a request other than INIT, which sends whole bytes or nothing, keeps the nibbles paired. -/
namespace Sys2Proof.Machine

open Sys2Proof.Safety

/-! ### The lines inside a transfer -/

/-- R31, R50, R92: the block is bound, its E is high exactly where `raised` holds, and RS and D are then those of the
pulse. -/
structure LinesShow (raised : Prop) (rs : Bit) (v : Nibble) (u : State) : Prop where
  bound : u.OE = true
  enable : u.E = true ↔ raised
  select : u.E = true → u.RS = rs
  data : u.E = true → u.D = v

/-- R90: E is high after the third and the fourth micro-operation alone, over the nibble sent. -/
theorem nibbleTransfer_take_linesShow (T : Timing) (v : Nibble) (rs : Bit) (tpost : Nat) {m : Nat} (hm : m ≤ 6)
    {s : State} (hoe : s.OE = true) (he : s.E = false) :
    LinesShow (m = 3 ∨ m = 4) rs v (perform ((nibbleTransfer T v rs tpost).take m) s) := by
  interval_cases m <;> constructor <;> simp [nibbleTransfer, hoe, he]

section onLines
variable {raised raised' : Prop} {b : Byte} {rs : Bit} {v v' : Nibble} {n : Nat} {u : State}

theorem LinesShow.congr (h : LinesShow raised rs v u) (hraised : raised ↔ raised') (hv : v = v') :
    LinesShow raised' rs v' u :=
  hv ▸ ⟨h.bound, h.enable.trans hraised, h.select, h.data⟩

/-- The lines do not depend on what the sequencer's steps add around the micro-operations. -/
theorem LinesShow.advance (h : LinesShow raised rs v u) (k : Nat) : LinesShow raised rs v (advance k u) := by
  obtain ⟨hbound, henable, hselect, hdata⟩ := h
  constructor <;> simpa

/-- R51: the nibble on the lines after the first `n` micro-operations of a byte transfer, the high one first. -/
def nibbleAt (b : Byte) (n : Nat) : Nibble := if n < 6 then highNibble b else lowNibble b

theorem nibbleAt_getLsbD (b : Byte) (n : Nat) (j : Fin 4) :
    (nibbleAt b n).getLsbD j = b.getLsbD (if n < 6 then 4 + j.val else j.val) := by
  unfold nibbleAt
  split <;> simp [highNibble, lowNibble]

/-- R93: the first six micro-operations send the high nibble, the next six the low one. -/
theorem byteTransfer_take_linesShow (T : Timing) (b : Byte) (rs : Bit) (tpost : Nat) (hn : n ≤ 12) {s : State}
    (hoe : s.OE = true) (he : s.E = false) :
    LinesShow (n = 3 ∨ n = 4 ∨ n = 9 ∨ n = 10) rs (nibbleAt b n)
      (perform ((byteTransfer T b rs tpost).take n) s) := by
  have hlen : (nibbleTransfer T (highNibble b) rs 0).length = 6 := rfl
  rw [byteTransfer]
  by_cases hhigh : n < 6
  · rw [List.take_append_of_le_length (hlen ▸ hhigh.le)]
    exact (nibbleTransfer_take_linesShow T _ rs 0 hhigh.le hoe he).congr (by omega) (if_pos hhigh).symm
  · obtain ⟨m, rfl⟩ := Nat.exists_eq_add_of_le (Nat.le_of_not_lt hhigh)
    rw [← hlen, List.take_length_add_append, perform_append, hlen]
    have hlow := nibbleTransfer_take_linesShow T (lowNibble b) rs tpost (m := m) (by omega)
      (s := perform (nibbleTransfer T (highNibble b) rs 0) s) hoe rfl
    exact hlow.congr (by omega) (if_neg hhigh).symm

/-- R31, R50: a bound block's registers are the levels of its lines. -/
theorem LinesShow.lineLevel (h : LinesShow raised rs (nibbleAt b n) u) (he : u.E = true) (k : Nat) (j : Fin 4) :
    u.lineLevel k (.data j) = .ofBit (b.getLsbD (if n < 6 then 4 + j.val else j.val)) ∧
    u.lineLevel k .registerSelect = .ofBit rs ∧ u.lineLevel k .enable = .high := by
  simp only [lineLevel_of_driven _ _ h.bound, State.lineRegister, h.data he, nibbleAt_getLsbD, h.select he, he,
    true_and]
  rfl

end onLines

/-! ### The lines while a request sends its byte -/

/-- R24: out of reset, an idle block takes the request. -/
theorem accept_of_canRun {s : State} (h : canRun s) (w : ReqWord) (prog : List MicroOp) :
    accept w prog s = accepted w prog s :=
  if_pos ((reqReady_iff s).2 ⟨h.1, h.2.1⟩)

/-- R77, R78: after `n` steps the machine has performed the first `n` micro-operations of the byte transfer its
program begins with. -/
theorem runsTo_insideByteTransfer {i : Instr} {w : ReqWord} {T : Timing} {b : Byte} {rs : Bit} {tpost n : Nat}
    {rest : List MicroOp} {s : State} (hs : canRun s)
    (hexec : exec i s = .next (accept w (byteTransfer T b rs tpost ++ rest) s)) (hn : n ≤ 12) :
    runsTo i s n (advance n (perform ((byteTransfer T b rs tpost).take n)
      (accepted w (byteTransfer T b rs tpost ++ rest) s))) := by
  have hlen : ((byteTransfer T b rs tpost).take n).length = n := List.length_take_of_le hn
  rw [accept_of_canRun hs] at hexec
  refine ⟨_, hexec, ?_⟩
  have hrun := run_program ((byteTransfer T b rs tpost).take n) ((byteTransfer T b rs tpost).drop n ++ rest)
    (accepted w (byteTransfer T b rs tpost ++ rest) s) hs.2 rfl
    (by rw [← List.append_assoc, List.take_append_drop]; rfl)
    fun op hop => byteTransfer_noComplete T b rs tpost op (List.mem_of_mem_take (List.mem_of_mem_dropLast hop))
  rwa [hlen] at hrun

theorem progCmd_of_ready {s : State} (h : s.DSTATE = .ready) (p : Byte) :
    progCmd p s = byteTransfer s.cfg.timing p false (byteFloor s.cfg false p) ++ [.complete .ok] :=
  if_pos h

theorem progData_of_ready {s : State} (h : s.DSTATE = .ready) (p : Byte) :
    progData p s = byteTransfer s.cfg.timing p true 0 ++ [.complete .ok] :=
  if_pos h

/-- R96, R97: in Ready, CMD and DATA are accepted with the transfer of their byte, with the RS of their kind. -/
theorem exec_sendsByteInReady {i : Instr} {rs : Bit} {p : Byte} {s : State}
    (hi : (i = .cmd p ∧ rs = false) ∨ (i = .data p ∧ rs = true)) (hready : s.DSTATE = .ready) :
    ∃ w tpost, exec i s = .next (accept w (byteTransfer s.cfg.timing p rs tpost ++ [.complete .ok]) s) := by
  obtain ⟨rfl, rfl⟩ | ⟨rfl, rfl⟩ := hi
  · exact ⟨cmdWord p, byteFloor s.cfg false p, by rw [← progCmd_of_ready hready]; rfl⟩
  · exact ⟨dataWord p, 0, by rw [← progData_of_ready hready]; rfl⟩

/-- Settles O41: the lines of a byte transfer, and CMD and DATA begin with one, in Ready, where the block is bound with
E low. -/
theorem dataLinesCarryTheByteLowBitFirst : Obligations.DataLinesCarryTheByteLowBitFirst := by
  refine ⟨fun T b rs tpost n s hoe he hn => ?_, fun i rs p n s hi hinv hs hready hn => ?_⟩
  · have h := byteTransfer_take_linesShow T b rs tpost hn hoe he
    exact ⟨h.enable, h.lineLevel⟩
  · obtain ⟨w, tpost, hexec⟩ := exec_sendsByteInReady hi hready
    obtain ⟨-, he, hoe⟩ := idleSafe_iff.1 (hinv.idle hs.1)
    have hlines := (byteTransfer_take_linesShow s.cfg.timing p rs tpost hn
      (s := accepted w (byteTransfer s.cfg.timing p rs tpost ++ [.complete .ok]) s) (hoe.2 hready) he).advance n
    exact ⟨_, runsTo_insideByteTransfer hs hexec hn, hlines.enable, hlines.lineLevel⟩

/-! ### Nibbles in pairs -/

/-- From any state with E low the micro-operations add an even number of pulses to the trace. -/
def PulsesInPairs (ops : List MicroOp) : Prop :=
  ∀ s : State, s.E = false → ∃ new, (perform ops s).trace = s.trace ++ new ∧ (pulses new).length % 2 = 0

theorem pulsesInPairs_of_trace_eq {ops : List MicroOp} (h : ∀ s, (perform ops s).trace = s.trace) :
    PulsesInPairs ops :=
  fun s _ => ⟨[], (h s).trans (List.append_nil _).symm, rfl⟩

/-- R52, R93: a byte is two pulses. -/
theorem byteTransfer_pulsesInPairs (T : Timing) (b : Byte) (rs : Bit) (tpost : Nat) :
    PulsesInPairs (byteTransfer T b rs tpost) := by
  intro s he
  obtain ⟨-, new, htrace, -, hpulses, -⟩ := sends_byte T b rs tpost s he
  exact ⟨new, htrace, by simp [hpulses, bytePulses]⟩

/-- R42, R54: the program ends with its one `Complete`, and what comes before pulses in pairs. -/
def PairedProgram (prog : List MicroOp) : Prop :=
  ∃ ops st, prog = ops ++ [.complete st] ∧ (∀ op ∈ ops, ∀ st, op ≠ .complete st) ∧ PulsesInPairs ops

/-- R95: a request turned away sends nothing. -/
theorem pairedProgram_turnedAway (st : Status) : PairedProgram (turnedAway st) :=
  ⟨[], st, rfl, by simp, pulsesInPairs_of_trace_eq fun _ => rfl⟩

/-- R93: a program that sends one byte. -/
theorem pairedProgram_sendByte (T : Timing) (b : Byte) (rs : Bit) (tpost : Nat) (st : Status) :
    PairedProgram (byteTransfer T b rs tpost ++ [.complete st]) :=
  ⟨_, st, rfl, byteTransfer_noComplete T b rs tpost, byteTransfer_pulsesInPairs T b rs tpost⟩

theorem pairedProgram_progCmd (p : Byte) (s : State) : PairedProgram (progCmd p s) := by
  unfold progCmd
  split
  · exact pairedProgram_sendByte ..
  · exact pairedProgram_turnedAway _

theorem pairedProgram_progData (p : Byte) (s : State) : PairedProgram (progData p s) := by
  unfold progData
  split
  · exact pairedProgram_sendByte ..
  · exact pairedProgram_turnedAway _

/-- R85, R120: the two records of a release show E low. -/
theorem pairedProgram_progRelease (s : State) : PairedProgram (progRelease s) := by
  unfold progRelease
  split
  · exact ⟨[.release, .step .idle, .setState .uninitialized], .ok, rfl, by simp,
      fun t _ => ⟨_, (opRelease_trace t).trans (List.append_assoc ..), rfl⟩⟩
  · exact ⟨[.step .idle, .setState .uninitialized], .ok, rfl, by simp, pulsesInPairs_of_trace_eq fun _ => rfl⟩

/-- R70: whatever a request's word other than an INIT's, the program it is accepted with sends bytes or nothing. -/
theorem exec_accepts_pairedProgram {i : Instr} {w : ReqWord} (hw : encode i = .request w) (hop : opField w ≠ 0b001#3)
    (s : State) : ∃ w' prog, exec i s = .next (accept w' prog s) ∧ PairedProgram prog := by
  cases i
  case lcdWake | lcdMode4 | lcdFuncset | lcdDispoff | lcdClear | lcdEntry | lcdDispon | lcdCmd | lcdData => cases hw
  case init f c b =>
    cases hw
    exact absurd (opField_initWord f c b) hop
  case data p => exact ⟨_, _, rfl, pairedProgram_progData p s⟩
  case release => exact ⟨_, _, rfl, pairedProgram_progRelease s⟩
  case cmd | clear | home | setpos0 | setpos1 | shiftl | shiftr => exact ⟨_, _, rfl, pairedProgram_progCmd _ s⟩
  case illegalOp000 | illegalInitRsvd | illegalReleasePayload | illegalOp101 | illegalOp110 | illegalOp111 =>
    exact ⟨_, _, rfl, pairedProgram_turnedAway _⟩

/-- Settles O25: the request runs to the end of a program that pulses in pairs, from an idle block, whose E is low. -/
theorem requestsKeepTheNibblePairing : Obligations.RequestsKeepTheNibblePairing := by
  intro i w s _ hw hop hinv hs
  obtain ⟨w', _, hexec, ops, st, rfl, hcomplete, hpairs⟩ := exec_accepts_pairedProgram hw hop s
  obtain ⟨-, he, -⟩ := idleSafe_iff.1 (hinv.idle hs.1)
  obtain ⟨new, htrace, heven⟩ := hpairs (accepted w' (ops ++ [.complete st]) s) he
  exact ⟨_, _, new, runsTo_of_accept hs hexec hcomplete, by simp, by simpa using htrace, heven⟩

end Sys2Proof.Machine

/-! Words and their instructions (R63 to R70, R75, R76): the table's rows read field by field, the decoder by its OP,
the reserved words, and the one effect of the instructions that share a word. -/
namespace Sys2Proof

/-! ### The fields of a word -/

/-- R64: INIT, CMD and RELEASE, whose payload decides between rows, then DATA and the four reserved values. -/
theorem op_cases (op : BitVec 3) :
    op = 0b001#3 ∨ op = 0b010#3 ∨ op = 0b100#3 ∨ op = 0b011#3 ∨ op = 0b000#3 ∨ op = 0b101#3 ∨ op = 0b110#3 ∨
      op = 0b111#3 := by
  revert op
  decide

/-- R63: two words are equal when their fields are. -/
theorem reqWord_eq_iff {v w : ReqWord} : v = w ↔ opField v = opField w ∧ payloadField v = payloadField w := by
  refine ⟨fun h => h ▸ ⟨rfl, rfl⟩, fun ⟨hop, hp⟩ => ?_⟩
  rw [← requestWord_fields v, hop, hp, requestWord_fields]

theorem requestWord_inj {op op' : BitVec 3} {p p' : Byte} :
    requestWord op p = requestWord op' p' ↔ op = op' ∧ p = p' := by
  simp only [reqWord_eq_iff, opField_requestWord, payloadField_requestWord]

@[simp] theorem opField_and (v w : ReqWord) : opField (v &&& w) = opField v &&& opField w :=
  BitVec.extractLsb'_and

@[simp] theorem payloadField_and (v w : ReqWord) : payloadField (v &&& w) = payloadField v &&& payloadField w :=
  BitVec.extractLsb'_and

/-- A mask of the upper bits tests those bits. -/
theorem and_upperMask_eq_iff {m k : Nat} (x : BitVec (m + k)) (v : BitVec m) :
    x &&& (BitVec.allOnes m ++ 0#k) = v ++ 0#k ↔ x.extractLsb' k m = v := by
  have hand : x &&& (BitVec.allOnes m ++ 0#k) = x.extractLsb' k m ++ 0#k := by
    conv_lhs => rw [← BitVec.extractLsb'_append_extractLsb' (x := x), BitVec.and_append]
    simp
  rw [hand, BitVec.append_left_inj]

/-! ### The rows of the table -/

/-- R64: what it is for a word to match a row. -/
def rowMatches (w : ReqWord) (r : TableRow) : Bool := w &&& r.mask == r.mtch

/-- The search of `rowOf`, over any rows. -/
def firstMatch (w : ReqWord) (rows : List TableRow) : Option String :=
  (rows.find? (rowMatches w)).map TableRow.mnemonic

theorem rowOf_eq_firstMatch (w : ReqWord) : rowOf w = firstMatch w requestRows := rfl

section rows
variable (op : BitVec 3) (p : Byte)

/-- A row matches a word when it matches both fields. -/
theorem rowMatches_iff (r : TableRow) : rowMatches (requestWord op p) r = true ↔
    op &&& opField r.mask = opField r.mtch ∧ p &&& payloadField r.mask = payloadField r.mtch := by
  rw [rowMatches, beq_iff_eq, reqWord_eq_iff, opField_and, payloadField_and, opField_requestWord,
    payloadField_requestWord]

theorem firstMatch_cons (r : TableRow) (rows : List TableRow) :
    firstMatch (requestWord op p) (r :: rows) =
      if op &&& opField r.mask = opField r.mtch ∧ p &&& payloadField r.mask = payloadField r.mtch then some r.mnemonic
      else firstMatch (requestWord op p) rows := by
  unfold firstMatch
  split
  next h => rw [List.find?_cons_of_pos ((rowMatches_iff op p r).2 h)]; rfl
  next h => rw [List.find?_cons_of_neg (mt (rowMatches_iff op p r).1 h)]

/-! The masks of the table on a payload. -/

theorem and_0xFF : p &&& 0xFF#8 = p := BitVec.and_allOnes

theorem and_0xF0_eq_0x80_iff : p &&& 0xF0#8 = 0x80#8 ↔ p.extractLsb' 4 4 = 0x8#4 :=
  and_upperMask_eq_iff (m := 4) (k := 4) p 0x8#4

theorem and_0xF0_eq_0xC0_iff : p &&& 0xF0#8 = 0xC0#8 ↔ p.extractLsb' 4 4 = 0xC#4 :=
  and_upperMask_eq_iff (m := 4) (k := 4) p 0xC#4

theorem and_0xF8_eq_0_iff : p &&& 0xF8#8 = 0#8 ↔ p.extractLsb' 3 5 = 0#5 :=
  and_upperMask_eq_iff (m := 5) (k := 3) p 0#5

/-- R76: the six rows of single commands, which come before that of CMD; no word matches two of them, so
that the decoder may test them in another order. -/
theorem rowOf_command : rowOf (requestWord 0b010 p) = some (decodeCommand p).mnemonic := by
  have hrow : rowOf (requestWord 0b010 p) =
      if p = 0x01#8 then some "CLEAR" else if p = 0x02#8 then some "HOME"
      else if p.extractLsb' 4 4 = 0x8#4 then some "SETPOS0" else if p.extractLsb' 4 4 = 0xC#4 then some "SETPOS1"
      else if p = 0x18#8 then some "SHIFTL" else if p = 0x1C#8 then some "SHIFTR" else some "CMD" := by
    simp [rowOf_eq_firstMatch, requestRows, firstMatch_cons, opField, payloadField, and_0xFF, and_0xF0_eq_0x80_iff,
      and_0xF0_eq_0xC0_iff]
  rw [hrow]
  unfold decodeCommand
  repeat' split
  all_goals simp_all [Instr.mnemonic]

/-- R67, R69: the row of INIT comes before that of the reserved INIT words. -/
theorem rowOf_init : rowOf (requestWord 0b001 p) = some (decodeInit p).mnemonic := by
  have hrow : rowOf (requestWord 0b001 p) =
      if p.extractLsb' 3 5 = 0#5 then some "INIT" else some "ILLEGAL_INIT_RSVD" := by
    simp [rowOf_eq_firstMatch, requestRows, firstMatch_cons, opField, payloadField, and_0xF8_eq_0_iff]
  rw [hrow]
  unfold decodeInit
  split <;> rfl

/-- R68, R69: the row of RELEASE comes before that of the reserved RELEASE words. -/
theorem rowOf_release : rowOf (requestWord 0b100 p) = some (decodeRelease p).mnemonic := by
  have hrow : rowOf (requestWord 0b100 p) =
      if p = 0#8 then some "RELEASE" else some "ILLEGAL_RELEASE_PAYLOAD" := by
    simp [rowOf_eq_firstMatch, requestRows, firstMatch_cons, opField, payloadField, and_0xFF]
  rw [hrow]
  unfold decodeRelease
  split <;> rfl

/-! ### The decoder, by OP -/

@[simp] theorem decodeRequest_op000 : decodeRequest (requestWord 0b000#3 p) = .illegalOp000 p := by
  simp [decodeRequest]
@[simp] theorem decodeRequest_init : decodeRequest (requestWord 0b001#3 p) = decodeInit p := by
  simp [decodeRequest]
@[simp] theorem decodeRequest_command : decodeRequest (requestWord 0b010#3 p) = decodeCommand p := by
  simp [decodeRequest]
@[simp] theorem decodeRequest_data : decodeRequest (requestWord 0b011#3 p) = .data p := by
  simp [decodeRequest]
@[simp] theorem decodeRequest_release : decodeRequest (requestWord 0b100#3 p) = decodeRelease p := by
  simp [decodeRequest]
@[simp] theorem decodeRequest_op101 : decodeRequest (requestWord 0b101#3 p) = .illegalOp101 p := by
  simp [decodeRequest]
@[simp] theorem decodeRequest_op110 : decodeRequest (requestWord 0b110#3 p) = .illegalOp110 p := by
  simp [decodeRequest]
@[simp] theorem decodeRequest_op111 : decodeRequest (requestWord 0b111#3 p) = .illegalOp111 p := by
  simp [decodeRequest]

/-- The names of the reserved rows (R69). -/
def reservedRows : List String :=
  ["ILLEGAL_OP000", "ILLEGAL_INIT_RSVD", "ILLEGAL_RELEASE_PAYLOAD", "ILLEGAL_OP101", "ILLEGAL_OP110", "ILLEGAL_OP111"]

theorem decodeCommand_notReserved : (decodeCommand p).mnemonic ∉ reservedRows := by
  unfold decodeCommand
  repeat' split
  all_goals simp [Instr.mnemonic, reservedRows]

theorem decodeInit_reserved_iff : (decodeInit p).mnemonic ∈ reservedRows ↔ p.extractLsb' 3 5 ≠ 0#5 := by
  unfold decodeInit
  split
  all_goals simpa [Instr.mnemonic, reservedRows]

theorem decodeRelease_reserved_iff : (decodeRelease p).mnemonic ∈ reservedRows ↔ p ≠ 0#8 := by
  unfold decodeRelease
  split
  all_goals simpa [Instr.mnemonic, reservedRows]

end rows

/-- R64: the row a word matches first is that of its instruction. -/
theorem rowOf_eq_mnemonic (w : ReqWord) : rowOf w = some (decodeRequest w).mnemonic := by
  rw [← requestWord_fields w]
  generalize opField w = op, payloadField w = p
  obtain rfl | rfl | rfl | rfl | rfl | rfl | rfl | rfl := op_cases op
  · exact decodeRequest_init p ▸ rowOf_init p
  · exact decodeRequest_command p ▸ rowOf_command p
  · exact decodeRequest_release p ▸ rowOf_release p
  all_goals
    simp [rowOf_eq_firstMatch, requestRows, firstMatch_cons, opField, payloadField, Instr.mnemonic]

/-- R69: a word is illegal exactly where its instruction is a reserved row. -/
theorem illegalWord_iff_reserved (w : ReqWord) : illegalWord w = true ↔ (decodeRequest w).mnemonic ∈ reservedRows := by
  rw [← requestWord_fields w]
  generalize opField w = op, payloadField w = p
  obtain rfl | rfl | rfl | rfl | rfl | rfl | rfl | rfl := op_cases op
  · simp [illegalWord, decodeInit_reserved_iff]
  · simp [illegalWord, decodeCommand_notReserved]
  · simp [illegalWord, decodeRelease_reserved_iff]
  all_goals simp [illegalWord, Instr.mnemonic, reservedRows]

/-- Settles O37, by the eight values of OP. -/
theorem decoderFollowsTheTable : Obligations.DecoderFollowsTheTable :=
  fun w => ⟨rowOf_eq_mnemonic w, illegalWord_iff_reserved w⟩

/-- Settles O38: both functions compute. -/
theorem exampleWordsDecodeAsWritten : Obligations.ExampleWordsDecodeAsWritten := by
  unfold Obligations.ExampleWordsDecodeAsWritten
  decide

end Sys2Proof

namespace Sys2Proof.Machine

open Sys2Proof.Safety

/-! ### One word, one effect -/

/-- R76: whatever its name, a request with the word of a CMD does what the CMD does. -/
theorem exec_eq_cmd_of_encode {i : Instr} {p : Byte} (hw : encode i = .request (cmdWord p)) (s : State) :
    exec i s = exec (.cmd p) s := by
  cases i
  case cmd | clear | home | setpos0 | setpos1 | shiftl | shiftr =>
    obtain ⟨-, rfl⟩ := requestWord_inj.1 (Encoded.request.inj hw)
    rfl
  case lcdWake | lcdMode4 | lcdFuncset | lcdDispoff | lcdClear | lcdEntry | lcdDispon | lcdCmd | lcdData => cases hw
  all_goals exact absurd (requestWord_inj.1 (Encoded.request.inj hw)).1 (by decide)

/-- R90: what a display transfer does is its program. -/
theorem exec_displayProgram {i : Instr} (hi : i.isRequest = false) (s : State) :
    exec i s = .next (transfer (displayProgram i s) s) := by
  cases i
  case lcdWake | lcdMode4 | lcdFuncset | lcdDispoff | lcdClear | lcdEntry | lcdDispon | lcdCmd | lcdData => rfl
  all_goals cases hi

/-- R73, R105: the function-set byte at the defaults of R9. -/
theorem functionSetByte_default (f : Bit) :
    functionSetByte .default f = 0b00101#5 ++ BitVec.ofBool f ++ 0b00#2 := by
  cases f <;> rfl

/-- R73, R105: the display-on byte at the defaults of R9. -/
theorem displayOnByte_default (c b : Bit) :
    displayOnByte .default c b = 0b000011#6 ++ BitVec.ofBool c ++ BitVec.ofBool b := by
  cases c <;> cases b <;> rfl

/-- R74: only the long-executing commands have a floor of their own. -/
theorem byteFloor_command (P : Params) (b : Byte) :
    byteFloor P false b = if b ∈ P.cmds.LONG_EXEC_CMDS then P.timing.T_CLEAR_MIN else 0 := by
  simp [byteFloor, isLongExec]

/-- R74 at the defaults of R9. -/
theorem byteFloor_default {P : Params} (hcmds : P.cmds = .default) (b : Byte) :
    byteFloor P false b = if b ∈ [0x01#8, 0x02#8, 0x03#8] then P.timing.T_CLEAR_MIN else 0 := by
  rw [byteFloor_command, hcmds]
  rfl

/-- R73, R76: at the default command bytes a row of the init sequence sends its byte as LCD_CMD does; of these bytes
only that of clear is long-executing. -/
theorem displayProgram_eq_lcdCmd {i : Instr} {p : Byte} {s : State} (hcmds : s.cfg.cmds = .default)
    (hw : encode i = .byte false p) : displayProgram i s = progLcdCmd p s := by
  cases i
  case lcdCmd => cases hw; rfl
  case lcdFuncset f =>
    cases hw
    rw [displayProgram, progLcdFuncset, progLcdCmd, hcmds, functionSetByte_default, byteFloor_default hcmds]
    cases f <;> rfl
  case lcdDispon c b =>
    cases hw
    rw [displayProgram, progLcdDispon, progLcdCmd, hcmds, displayOnByte_default, byteFloor_default hcmds]
    cases c <;> cases b <;> rfl
  case lcdDispoff | lcdClear | lcdEntry =>
    cases hw
    rw [progLcdCmd, byteFloor_default hcmds]
    simp only [displayProgram, progLcdDispoff, progLcdClear, progLcdEntry, hcmds]
    rfl
  all_goals cases hw

/-- R73, R76: at the default command bytes, one byte has one effect, whatever its name. -/
theorem exec_eq_lcdCmd_of_encode {i : Instr} {p : Byte} {s : State} (hcmds : s.cfg.cmds = .default)
    (hw : encode i = .byte false p) : exec i s = exec (.lcdCmd p) s := by
  have hi : i.isRequest = false := by
    cases i
    case lcdWake | lcdMode4 | lcdFuncset | lcdDispoff | lcdClear | lcdEntry | lcdDispon | lcdCmd | lcdData => rfl
    all_goals cases hw
  rw [exec_displayProgram hi, displayProgram_eq_lcdCmd hcmds hw]
  rfl

/-- Settles O36: of all names only those of CMD and LCD_CMD bytes change, and the new name has the old one's word. -/
theorem namesOfOneWordHaveOneEffect : Obligations.NamesOfOneWordHaveOneEffect := by
  intro i s hwf h
  cases i
  case cmd p =>
    obtain ⟨-, hword, -⟩ := Laws.CanonKeepsWord.command_byte p
    exact exec_eq_cmd_of_encode hword s
  case lcdCmd p =>
    obtain ⟨-, hword, -⟩ := Laws.CanonKeepsWord.transfer_byte p
    exact exec_eq_lcdCmd_of_encode (h.resolve_left Bool.false_ne_true) hword
  all_goals rfl

/-! ### Requests that send a byte -/

/-- R93: a byte transfer sends its byte. -/
theorem byteSent_byteTransfer (b : Byte) (rs : Bit) (tpost : Nat) (s : State) :
    byteSent b rs tpost s (perform (byteTransfer s.cfg.timing b rs tpost) s) := by
  simp [byteSent, byteTransfer, nibbleTransfer_trace, nibbleTransfer_now, nibbleRecords, nibbleEnd, highNibble,
    lowNibble]

/-- What a transfer leaves alone, field by field. -/
theorem OnlyLinesAndTime.fields {s u : State} (h : OnlyLinesAndTime s u) : onlyLinesAndTime s u := by
  unfold OnlyLinesAndTime at h
  rw [h]
  exact ⟨⟨rfl, rfl, rfl, rfl, rfl, rfl, rfl, rfl, rfl⟩, rfl, rfl, rfl, rfl, rfl, rfl, rfl, rfl⟩

/-- R77, R89, R93: a request accepted with a byte transfer and its completion sends the byte, answers and leaves the
binding alone. -/
theorem runsTo_sendsByte {i : Instr} {w : ReqWord} {b : Byte} {rs : Bit} {tpost : Nat} {st : Status} {s : State}
    (hs : canRun s)
    (hexec : exec i s = .next (accept w (byteTransfer s.cfg.timing b rs tpost ++ [.complete st]) s)) :
    ∃ u, runsTo i s 13 u ∧ byteSent b rs tpost s u ∧ completedWith st s u ∧ sameBinding s u := by
  have hsent := byteSent_byteTransfer b rs tpost
    (accepted w (byteTransfer s.cfg.timing b rs tpost ++ [.complete st]) s)
  obtain ⟨hbinding, -, -, -, -, -, hresponses, -⟩ := (byteTransfer_onlyLinesAndTime s.cfg.timing b rs tpost
    (accepted w (byteTransfer s.cfg.timing b rs tpost ++ [.complete st]) s)).fields
  refine ⟨_, runsTo_of_accept hs hexec (byteTransfer_noComplete _ _ _ _), ?_, ?_, ?_⟩
  · simpa [byteSent] using hsent
  · simpa [completedWith] using hresponses
  · simpa [sameBinding] using hbinding

/-- Settles O13: the word of a pseudo-request is that of a CMD, and in Ready the CMD sends its byte. -/
theorem pseudoRequestsSendTheirExpansion : Obligations.PseudoRequestsSendTheirExpansion := by
  intro i b s hi
  have hword : encode i = .request (cmdWord b) := by
    obtain ⟨rfl, rfl⟩ | ⟨rfl, rfl⟩ | ⟨col, rfl, rfl⟩ | ⟨col, rfl, rfl⟩ | ⟨rfl, rfl⟩ | ⟨rfl, rfl⟩ := hi
    all_goals rfl
  have hexec := exec_eq_cmd_of_encode hword s
  refine ⟨hexec, fun hs hready => ?_⟩
  rw [← byteFloor_command]
  apply runsTo_sendsByte hs (w := cmdWord b)
  rw [hexec, ← progCmd_of_ready hready]
  rfl

/-! ### Reserved words -/

/-- R77, R95: a request turned away answers in one step and changes nothing but STATUS and its own registers. -/
theorem runsTo_turnedAway {i : Instr} {w : ReqWord} {st : Status} {s : State} (hs : canRun s)
    (hexec : exec i s = .next (accept w (turnedAway st) s)) :
    ∃ u, runsTo i s 1 u ∧ completedWith st s u ∧ sameBinding s u ∧
      u.RS = s.RS ∧ u.E = s.E ∧ u.D = s.D ∧ u.trace = s.trace ∧ u.now = s.now :=
  ⟨_, runsTo_of_accept (ops := []) hs hexec (by simp), by simp [completedWith], by simp [sameBinding], by simp⟩

/-- Settles O16: well-formedness makes the words of the reserved INIT and RELEASE rows illegal; the others are by their
OP. Each is turned away. -/
theorem illegalRequestChangesNothing : Obligations.IllegalRequestChangesNothing := by
  intro i w s hwf hw hi
  obtain ⟨p, rfl⟩ | ⟨p, rfl⟩ | ⟨p, rfl⟩ | ⟨p, rfl⟩ | ⟨p, rfl⟩ | ⟨p, rfl⟩ := hi
  case inr.inl | inr.inr.inl =>
    cases hw
    exact ⟨by simpa [illegalWord, Instr.wf] using hwf, fun hs => runsTo_turnedAway hs rfl⟩
  all_goals
    cases hw
    exact ⟨by simp [illegalWord], fun hs => runsTo_turnedAway hs rfl⟩

/-! ### The assembler -/

/-- R10, R76: the column does not carry out of the byte. -/
theorem requestWord_setpos0Byte (col : BitVec 4) :
    requestWord 0b010#3 (setpos0Byte col) = 0x280#11 + col.setWidth 11 := by
  revert col
  decide

theorem requestWord_setpos1Byte (col : BitVec 4) :
    requestWord 0b010#3 (setpos1Byte col) = 0x2C0#11 + col.setWidth 11 := by
  revert col
  decide

theorem assembleLine_setpos0 (col : BitVec 4) : assembleLine (.setpos 0 col.toNat) = some [.setpos0 col] := by
  simp [assembleLine, col.isLt]

theorem assembleLine_setpos1 (col : BitVec 4) : assembleLine (.setpos 1 col.toNat) = some [.setpos1 col] := by
  simp [assembleLine, col.isLt]

/-- R76: off the display. -/
theorem assembleLine_setpos_refused {l c : Nat} (h : 2 ≤ l ∨ 16 ≤ c) : assembleLine (.setpos l c) = none := by
  rw [assembleLine]
  split
  next hcol => rw [if_neg (by omega), if_neg (by omega)]
  next => rfl

/-- Settles O53, line by line. -/
theorem assemblerExpandsThePseudoRequests : Obligations.AssemblerExpandsThePseudoRequests := by
  refine ⟨rfl, rfl, rfl, rfl, fun col => ⟨?_, ?_⟩, fun l c h => ?_, fun text h => ?_⟩
  · simp [assembleWords, assembleLine_setpos0, encode, requestWord_setpos0Byte]
  · simp [assembleWords, assembleLine_setpos1, encode, requestWord_setpos1Byte]
  · simp [assembleWords, assembleLine_setpos_refused h]
  · simp only [assembleLine, h, if_true]

end Sys2Proof.Machine

/-! The transport and the sequencer (R70, R77 to R91, R154 to R156). A request's word decides what its acceptance
writes; a busy block's step is the micro-operation at `upc`; and every program keeps the set-up, width and settle
intervals of R91, so that every step keeps the timing invariant. -/
namespace Sys2Proof

/-! ### The instruction of a word -/

/-- R67: the three bits of an INIT payload, read back. -/
theorem initPayload_getLsbD (f c b : Bit) :
    (initPayload f c b).getLsbD 0 = f ∧ (initPayload f c b).getLsbD 1 = c ∧ (initPayload f c b).getLsbD 2 = b := by
  revert f c b
  decide

/-- R67: a payload whose reserved bits are zero is its three bits. -/
theorem initPayload_of_reservedZero {p : Byte} (h : p.extractLsb' 3 5 = 0#5) :
    initPayload (p.getLsbD 0) (p.getLsbD 1) (p.getLsbD 2) = p := by
  revert p
  decide

/-- R69, R70: the instruction the decoder names is well-formed and has the word it was read from. -/
theorem decodeRequest_wf_encode (w : ReqWord) :
    (decodeRequest w).wf = true ∧ encode (decodeRequest w) = .request w := by
  rw [← requestWord_fields w]
  generalize opField w = op, payloadField w = p
  obtain rfl | rfl | rfl | rfl | rfl | rfl | rfl | rfl := op_cases op
  · rw [decodeRequest_init, decodeInit]
    split
    next h => exact ⟨rfl, by rw [encode, initPayload_of_reservedZero h]; rfl⟩
    next h => exact ⟨bne_iff_ne.2 h, rfl⟩
  · rw [decodeRequest_command]
    obtain ⟨hwf, hword, -⟩ := Laws.CanonKeepsWord.command_byte p
    exact ⟨hwf, hword⟩
  · rw [decodeRequest_release, decodeRelease]
    split
    next h => exact ⟨rfl, h ▸ rfl⟩
    next h => exact ⟨bne_iff_ne.2 h, rfl⟩
  all_goals simp [Instr.wf, encode]

end Sys2Proof

namespace Sys2Proof.Machine

open Sys2Proof.Safety

/-! ### Acceptance, read from the word -/

section requestProgram
variable (p : Byte) (s : State)

/-- R69, R70. -/
theorem requestProgram_illegal {w : ReqWord} (h : illegalWord w = true) : requestProgram w s = progIllegal :=
  if_pos h

theorem requestProgram_init (f c b : Bit) : requestProgram (initWord f c b) s = progInit f c b s := by
  have hlegal : illegalWord (initWord f c b) = false := by revert f c b; decide
  have hpayload : payloadField (initWord f c b) = initPayload f c b := payloadField_requestWord ..
  obtain ⟨hf, hc, hb⟩ := initPayload_getLsbD f c b
  rw [requestProgram, hlegal, hpayload, hf, hc, hb, opField_initWord]
  rfl

theorem requestProgram_cmd : requestProgram (cmdWord p) s = progCmd p s := by
  simp [requestProgram, illegalWord, cmdWord]

theorem requestProgram_data : requestProgram (dataWord p) s = progData p s := by
  simp [requestProgram, illegalWord, dataWord]

theorem requestProgram_release : requestProgram releaseWord s = progRelease s := by
  simp [requestProgram, illegalWord, releaseWord]

end requestProgram

/-- R70, R77: a well-formed request is accepted with the program of its word. -/
theorem exec_eq_accept_requestProgram {i : Instr} {w : ReqWord} (hwf : i.wf = true) (hw : encode i = .request w)
    (s : State) : exec i s = .next (accept w (requestProgram w s) s) := by
  cases i
  case lcdWake | lcdMode4 | lcdFuncset | lcdDispoff | lcdClear | lcdEntry | lcdDispon | lcdCmd | lcdData => cases hw
  case init f c b => cases hw; exact requestProgram_init s f c b ▸ rfl
  case data p => cases hw; exact requestProgram_data p s ▸ rfl
  case release => cases hw; exact requestProgram_release s ▸ rfl
  case cmd | clear | home | setpos0 | setpos1 | shiftl | shiftr => cases hw; exact requestProgram_cmd _ s ▸ rfl
  case illegalInitRsvd | illegalReleasePayload =>
    cases hw
    rw [requestProgram_illegal s (by simpa [illegalWord, Instr.wf] using hwf)]
    rfl
  case illegalOp000 | illegalOp101 | illegalOp110 | illegalOp111 =>
    cases hw
    rw [requestProgram_illegal s (by simp [illegalWord])]
    rfl

/-- Settles O7: a ready block accepts the request with the program of its word. -/
theorem acceptanceFollowsTheWord : Obligations.AcceptanceFollowsTheWord := by
  intro i w s hwf hw hready
  rw [exec_eq_accept_requestProgram hwf hw, accept, if_pos hready]
  rfl

/-- R70: the decoder's name for a word is accepted with the program of that word. -/
theorem exec_decodeRequest (w : ReqWord) (s : State) :
    exec (decodeRequest w) s = .next (accept w (requestProgram w s) s) :=
  exec_eq_accept_requestProgram (decodeRequest_wf_encode w).1 (decodeRequest_wf_encode w).2 s

/-- Settles O3: the instruction presented and the one decoded have one word, and so one effect. -/
theorem stepRunsTheDecodedRequest : Obligations.StepRunsTheDecodedRequest := by
  rintro i w s hwf hw rfl hvalid hr hb
  rw [exec_eq_accept_requestProgram hwf hw, ← exec_decodeRequest]
  simp [step, hr, hb, hvalid]

/-! ### A micro-operation, performed by the step -/

/-- Settles O4: no micro-operation writes the request registers or the parameters. -/
theorem stepPerformsTheMicroOperationAtUpc : Obligations.StepPerformsTheMicroOperationAtUpc := by
  intro op s hr hb hop
  have hstep := step_microOp hr hb hop
  refine ⟨hstep, fun t ht => ?_⟩
  cases hstep.symm.trans ht
  have hkeep := microOpDrawn_keepsRequest op s
  simp [hkeep.upc, hkeep.PROG, hkeep.CUR, hkeep.cfg]

/-- Settles O8, operation by operation. -/
theorem lineMicroOperationsWriteAndRecord : Obligations.LineMicroOperationsWriteAndRecord := by
  intro op s t hr hb hop ht
  cases (step_microOp hr hb hop).symm.trans ht
  refine ⟨?_, ?_, ?_, ?_, ?_⟩
  · rintro rs d rfl
    simp
  all_goals
    rintro rfl
    simp

section frames
variable {op : MicroOp} (s : State)

/-- R80 to R85: only five micro-operations write a line or record. -/
theorem microOpDrawn_lines (hdrive : ∀ rs d, op ≠ .drive rs d) (hhigh : op ≠ .enHigh) (hlow : op ≠ .enLow)
    (hbind : op ≠ .bind) (hrelease : op ≠ .release) :
    (microOpDrawn op s).RS = s.RS ∧ (microOpDrawn op s).E = s.E ∧ (microOpDrawn op s).D = s.D ∧
      (microOpDrawn op s).OE = s.OE ∧ (microOpDrawn op s).REL = s.REL ∧ (microOpDrawn op s).trace = s.trace := by
  cases op
  case drive rs d => exact absurd rfl (hdrive rs d)
  case enHigh => exact absurd rfl hhigh
  case enLow => exact absurd rfl hlow
  case bind => exact absurd rfl hbind
  case release => exact absurd rfl hrelease
  all_goals exact ⟨rfl, rfl, rfl, rfl, rfl, rfl⟩

/-- R86: only `SetState` writes DSTATE. -/
theorem microOpDrawn_DSTATE (h : ∀ d, op ≠ .setState d) : (microOpDrawn op s).DSTATE = s.DSTATE := by
  cases op
  case setState d => exact absurd rfl (h d)
  all_goals rfl

/-- R87: only `Step` writes ISTEP. -/
theorem microOpDrawn_ISTEP (h : ∀ i, op ≠ .step i) : (microOpDrawn op s).ISTEP = s.ISTEP := by
  cases op
  case step i => exact absurd rfl (h i)
  all_goals rfl

/-- R88: only `Latch` writes the configuration. -/
theorem microOpDrawn_CFG (h : ∀ f c b, op ≠ .latch f c b) :
    (microOpDrawn op s).CFG_F = s.CFG_F ∧ (microOpDrawn op s).CFG_C = s.CFG_C ∧
      (microOpDrawn op s).CFG_B = s.CFG_B := by
  cases op
  case latch f c b => exact absurd rfl (h f c b)
  all_goals exact ⟨rfl, rfl, rfl⟩

/-- R89: only `Complete` answers. -/
theorem microOpDrawn_response (h : ∀ st, op ≠ .complete st) :
    (microOpDrawn op s).STATUS = s.STATUS ∧ (microOpDrawn op s).responses = s.responses := by
  cases op
  case complete st => exact absurd rfl (h st)
  all_goals exact ⟨rfl, rfl⟩

end frames

/-- Settles O9: the operations' own effects, then one frame for each register. -/
theorem otherMicroOperationsChangeNoLine : Obligations.OtherMicroOperationsChangeNoLine := by
  intro op s t hr hb hop ht
  cases (step_microOp hr hb hop).symm.trans ht
  refine ⟨?_, ?_, ?_, ?_, ?_, by simpa using microOpDrawn_lines (op := op) s, fun h => ?_,
    by simpa using microOpDrawn_DSTATE (op := op) s, by simpa using microOpDrawn_ISTEP (op := op) s,
    by simpa using microOpDrawn_CFG (op := op) s, fun h => ?_⟩
  · rintro tmin rfl
    simp
  · rintro d rfl
    simp
  · rintro i rfl
    simp
  · rintro f c b rfl
    simp
  · rintro st rfl
    simp
  · simpa using (microOpDrawn_now op s).resolve_right fun ⟨tmin, hwait, _⟩ => h tmin hwait
  · simpa [microOpDrawn_BUSY h, hb] using microOpDrawn_response s h

/-! ### A display transfer, performed by the sequencer -/

/-- R90, R93: no display transfer completes a request. -/
theorem displayProgram_noComplete (i : Instr) (s : State) :
    ∀ op ∈ displayProgram i s, ∀ st, op ≠ .complete st := by
  cases i
  case lcdWake | lcdMode4 => exact nibbleTransfer_noComplete _ _ _ _
  case lcdFuncset | lcdDispoff | lcdClear | lcdEntry | lcdDispon | lcdCmd | lcdData =>
    exact byteTransfer_noComplete _ _ _ _
  all_goals simp [displayProgram]

/-- Settles O32: the sequencer performs the transfer's micro-operations, and adds to them what `advance` does to `upc`
and the inputs. -/
theorem sequencerStepsAreTheDisplayTransfer : Obligations.SequencerStepsAreTheDisplayTransfer := by
  intro i rest s hi hb hr hprog
  have hrun := run_program (displayProgram i s) rest s hr hb hprog fun op hop =>
    displayProgram_noComplete i s op (List.mem_of_mem_dropLast hop)
  have hexec : exec i s = .next (perform (displayProgram i s) s) := by
    simp [exec_displayProgram hi, transfer, hr.1]
  have hkeep := perform_keepsRequest (displayProgram i s) s
  refine ⟨_, _, hrun, hexec, by rw [advance_upc, hkeep.upc], ?_⟩
  rw [advance_eq]

/-! ### One record more on a timed trace -/

/-- What the invariant says of the trace and the lines, whatever is in flight. -/
structure TimedLines (s : State) : Prop where
  trace : traceTimed s.cfg.timing s.trace = true
  last : ∀ r, s.trace.getLast? = some r → r.t ≤ s.now ∧ showsLines s r
  first : s.trace = [] → s.E = false
  bound : s.OE = true → s.trace ≠ []

theorem elapsed_of_getLast? {s : State} {r : PinRecord} (h : s.trace.getLast? = some r) :
    elapsed s = s.now - r.t := by
  simp [elapsed, h]

@[simp] theorem elapsed_nextUpc (s : State) : elapsed (nextUpc s) = elapsed s := rfl

/-- R91: a record that keeps the interval of its edge, and the settle interval where one is running, keeps the trace
timed. -/
theorem traceTimed_snoc {T : Timing} {tr : List PinRecord} {r : PinRecord} (h : traceTimed T tr = true)
    (hfirst : tr = [] → r.E = false) (hedge : ∀ p, tr.getLast? = some p → edgeOk T p r = true)
    (hsettle : ∀ p, tr.getLast? = some p → tracePhase tr = .settling → p.t + T.T_SETTLE_MIN ≤ r.t) :
    traceTimed T (tr ++ [r]) = true := by
  simp only [traceTimed, Bool.and_eq_true] at h ⊢
  obtain ⟨⟨hlow, hedges⟩, hsettles⟩ := h
  refine ⟨⟨?_, ?_⟩, ?_⟩
  · cases tr with
    | nil => simp [startsLow, hfirst rfl]
    | cons a tr => exact hlow
  · rw [edgesOk_snoc, hedges, Bool.true_and]
    split
    next p hp => exact hedge p hp
    next => rfl
  · rw [settlesOk_snoc, hsettles, Bool.true_and]
    split
    next q p rest hrev =>
      have hq : tr.getLast? = some q := by rw [← List.head?_reverse, hrev]; rfl
      cases hfall : p.E && !q.E
      · simp [settleOk, hfall]
      · obtain ⟨hpE, hqE⟩ : p.E = true ∧ q.E = false := by simpa using hfall
        have hphase : tracePhase tr = .settling := by simp [tracePhase, hrev, phaseOf, hpE, hqE]
        simp [settleOk, hsettle q hq hphase]
    next => rfl

/-- The state right after a record: the trace is timed and has just entered this phase. -/
structure Recorded (ph : Phase) (u : State) : Prop extends TimedLines u where
  phase : tracePhase u.trace = ph
  fresh : elapsed u = 0

/-- R79: after `record` the last record shows the lines now. -/
theorem recorded_record {u : State} {ph : Phase}
    (htrace : traceTimed u.cfg.timing (u.trace ++ [⟨u.now, u.OE, u.RS, u.E, u.D⟩]) = true)
    (hphase : tracePhase (u.trace ++ [⟨u.now, u.OE, u.RS, u.E, u.D⟩]) = ph) : Recorded ph (record u) where
  trace := htrace
  last r hr := by
    rw [record_trace, List.getLast?_concat] at hr
    cases hr
    exact ⟨le_rfl, rfl, rfl, rfl, rfl⟩
  first h := absurd h (by simp)
  bound _ := by simp
  phase := hphase
  fresh := by simp [elapsed]

section records
variable {s : State}

/-- R156: a settle interval that is over. -/
theorem settle_le_now {p : PinRecord} (hp : s.trace.getLast? = some p) (hpt : p.t ≤ s.now)
    (hsettled : settled s.cfg.timing (tracePhase s.trace) (elapsed s) = true)
    (hphase : tracePhase s.trace = .settling) : p.t + s.cfg.timing.T_SETTLE_MIN ≤ s.now := by
  rw [hphase, elapsed_of_getLast? hp] at hsettled
  simp only [settled, decide_eq_true_eq] at hsettled
  omega

/-- R91 (c): once settled, lines with E low may change in any way that leaves it low. -/
theorem recorded_low (h : TimedLines s) (hE : s.E = false)
    (hsettled : settled s.cfg.timing (tracePhase s.trace) (elapsed s) = true) {oe rel rs e : Bit} {d : Nibble}
    (he : e = false) : Recorded .low (record { s with OE := oe, REL := rel, RS := rs, E := e, D := d }) := by
  subst he
  have hlast (p : PinRecord) (hp : s.trace.getLast? = some p) : p.t ≤ s.now ∧ p.E = false := by
    obtain ⟨hpt, -, -, hpE, -⟩ := h.last p hp
    exact ⟨hpt, hpE.trans hE⟩
  apply recorded_record
  · refine traceTimed_snoc h.trace (fun _ => rfl) (fun p hp => ?_) (fun p hp => ?_)
    · simp [edgeOk, hlast p hp]
    · exact settle_le_now hp (hlast p hp).1 hsettled
  · rw [tracePhase_snoc]
    split
    next hhigh => cases hhigh
    next =>
      split
      next p hp => simp [hlast p hp]
      next => rfl

/-- R79, R84: a bound block has a last record, which shows its lines. -/
theorem TimedLines.exists_last (h : TimedLines s) (hoe : s.OE = true) :
    ∃ t ≤ s.now, s.trace.getLast? = some ⟨t, s.OE, s.RS, s.E, s.D⟩ := by
  obtain ⟨p, hp⟩ := Option.isSome_iff_exists.1 (List.getLast?_isSome.2 (h.bound hoe))
  obtain ⟨hpt, hOE, hRS, hE, hD⟩ := h.last p hp
  exact ⟨p.t, hpt, by rw [hp, ← hOE, ← hRS, ← hE, ← hD]⟩

/-- R91 (a), R154: E may rise once the lines have been driven for the set-up time. -/
theorem recorded_rise (h : TimedLines s) (hoe : s.OE = true) (hE : s.E = false) (hphase : tracePhase s.trace = .low)
    (hsetup : s.cfg.timing.T_SETUP_MIN ≤ elapsed s) : Recorded .high (opEnHigh s) := by
  obtain ⟨t, ht, hlast⟩ := h.exists_last hoe
  rw [elapsed_of_getLast? hlast] at hsetup
  have hrise : t + s.cfg.timing.T_SETUP_MIN ≤ s.now := (Nat.le_sub_iff_add_le' ht).1 hsetup
  apply recorded_record
  · refine traceTimed_snoc h.trace (fun hnil => absurd hnil (h.bound hoe)) (fun q hq => ?_) (fun q _ hset => ?_)
    · cases hlast.symm.trans hq
      simp [edgeOk, sameData, hoe, hE, ht, hrise]
    · cases hphase.symm.trans hset
  · rw [tracePhase_snoc, if_pos rfl]

/-- R91 (b), R155: E may fall once it has been high for the pulse width. -/
theorem recorded_fall (h : TimedLines s) (hoe : s.OE = true) (hE : s.E = true) (hphase : tracePhase s.trace = .high)
    (hwidth : s.cfg.timing.T_EN_HIGH_MIN ≤ elapsed s) : Recorded .settling (opEnLow s) := by
  obtain ⟨t, ht, hlast⟩ := h.exists_last hoe
  rw [elapsed_of_getLast? hlast] at hwidth
  have hfall : t + s.cfg.timing.T_EN_HIGH_MIN ≤ s.now := (Nat.le_sub_iff_add_le' ht).1 hwidth
  apply recorded_record
  · refine traceTimed_snoc h.trace (fun _ => rfl) (fun q hq => ?_) (fun q _ hset => ?_)
    · cases hlast.symm.trans hq
      simp [edgeOk, sameData, hoe, hE, ht, hfall]
    · cases hphase.symm.trans hset
  · simp [tracePhase_snoc, hlast, hE]

/-- R85: the two records of a release. -/
theorem recorded_release (h : TimedLines s) (hE : s.E = false)
    (hsettled : settled s.cfg.timing (tracePhase s.trace) (elapsed s) = true) : Recorded .low (opRelease s) := by
  have hfirst : Recorded .low (record { s with OE := true, RS := false, E := false, D := 0b0000 }) :=
    recorded_low h hE hsettled rfl
  exact recorded_low hfirst.toTimedLines rfl (by rw [hfirst.phase]; rfl) rfl

/-- R83: a wait lasts at least its floor. -/
theorem elapsed_opWait (h : TimedLines s) (tmin slack : Nat) : elapsed s + tmin ≤ elapsed (opWait tmin slack s) := by
  simp only [elapsed, opWait_trace, opWait_now]
  split
  next r hr =>
    obtain ⟨hrt, -⟩ := h.last r hr
    omega
  next => omega

end records

/-! ### The first micro-operation of a timed program -/

section firstOp
variable {op : BitVec 3} {o : MicroOp} {rest : List MicroOp} {s : State}

/-- A program timed from the moment of a record is timed right after it. -/
theorem timedProgram_of_recorded {T : Timing} {ph : Phase} {u : State} (h : Recorded ph u)
    (hrest : timedProgram T rest ph 0 = true) : timedProgram T rest (tracePhase u.trace) (elapsed u) = true := by
  rwa [h.phase, h.fresh]

/-- R91: a micro-operation that writes the lines, at the head of a safe and timed program, records them in time. -/
theorem recorded_firstOp (h : TimedLines s) (hsafe : safeProgram op (o :: rest) s.DSTATE s.OE s.E s.RS = true)
    (htimed : timedProgram s.cfg.timing (o :: rest) (tracePhase s.trace) (elapsed s) = true)
    (ho : (∃ rs d, o = .drive rs d) ∨ o = .enHigh ∨ o = .enLow ∨ o = .bind ∨ o = .release) :
    ∃ ph, Recorded ph (microOpDrawn o s) ∧ timedProgram s.cfg.timing rest ph 0 = true := by
  obtain ⟨rs, d, rfl⟩ | rfl | rfl | rfl | rfl := ho
  all_goals
    simp only [safeProgram, timedProgram, Bool.and_eq_true, Bool.not_eq_true', beq_iff_eq, decide_eq_true_eq]
      at hsafe htimed
  · obtain ⟨⟨⟨⟨-, hE⟩, -⟩, -⟩, -⟩ := hsafe
    exact ⟨.low, recorded_low h hE htimed.1 hE, htimed.2⟩
  · obtain ⟨⟨⟨⟨hoe, hE⟩, -⟩, -⟩, -⟩ := hsafe
    obtain ⟨⟨hphase, hsetup⟩, hrest⟩ := htimed
    exact ⟨.high, recorded_rise h hoe hE hphase hsetup, hrest⟩
  · obtain ⟨⟨hoe, hE⟩, -⟩ := hsafe
    obtain ⟨⟨hphase, hwidth⟩, hrest⟩ := htimed
    exact ⟨.settling, recorded_fall h hoe hE hphase hwidth, hrest⟩
  · obtain ⟨⟨⟨-, hE⟩, -⟩, -⟩ := hsafe
    exact ⟨.low, recorded_low h hE htimed.1 rfl, htimed.2⟩
  · obtain ⟨⟨-, hE⟩, -⟩ := hsafe
    exact ⟨.low, recorded_release h hE htimed.1, htimed.2⟩

/-- R78, R91: the micro-operation a safe and timed program begins with keeps the trace timed, and either it is
`Complete`, once settled, or the rest of the program is timed after it. -/
theorem timedLines_firstOp (h : TimedLines s) (hsafe : safeProgram op (o :: rest) s.DSTATE s.OE s.E s.RS = true)
    (htimed : timedProgram s.cfg.timing (o :: rest) (tracePhase s.trace) (elapsed s) = true) :
    TimedLines (microOpDrawn o s) ∧
    ((∃ st, o = .complete st ∧ settled s.cfg.timing (tracePhase s.trace) (elapsed s) = true) ∨
      ((∀ st, o ≠ .complete st) ∧ timedProgram s.cfg.timing rest (tracePhase (microOpDrawn o s).trace)
        (elapsed (microOpDrawn o s)) = true)) := by
  have hrecords := recorded_firstOp h hsafe htimed
  obtain ⟨htrace, hlast, hfirst, hbound⟩ := h
  cases o
  case complete st => exact ⟨⟨htrace, hlast, hfirst, hbound⟩, .inl ⟨st, rfl, htimed⟩⟩
  case wait tmin =>
    exact ⟨⟨htrace, fun r hr => (hlast r hr).imp_left (Nat.le_add_right_of_le ·), hfirst, hbound⟩,
      .inr ⟨by simp, timedProgram_later htimed (elapsed_opWait ⟨htrace, hlast, hfirst, hbound⟩ ..)⟩⟩
  case setState | step | latch => exact ⟨⟨htrace, hlast, hfirst, hbound⟩, .inr ⟨by simp, htimed⟩⟩
  case drive | enHigh | enLow | bind | release =>
    obtain ⟨ph, hrec, hrest⟩ := hrecords (by simp)
    exact ⟨hrec.toTimedLines, .inr ⟨by simp, timedProgram_of_recorded hrec hrest⟩⟩

end firstOp

/-! ### The programs of requests are timed -/

section timed
variable {T : Timing} {ph : Phase} {el : Nat} {s : State}

/-- R156: where no pulse came before, there is nothing to wait for. -/
@[simp] theorem settled_low : settled T .low el = true := rfl

/-- R156: after a pulse, the settle interval. -/
@[simp] theorem settled_of_settleTime_le (h : T.T_SETTLE_MIN ≤ el) : settled T .settling el = true :=
  decide_eq_true h

/-- R93, R95, R96, R97: a settled block may send a byte or turn the request away, and the byte waits out the settle
interval. -/
theorem timedProgram_sendInReady (b : Byte) (rs : Bit) (tpost : Nat) (h : settled T ph el = true) :
    timedProgram T
      (if s.DSTATE = .ready then byteTransfer T b rs tpost ++ [.complete .ok] else turnedAway .notReady)
      ph el = true := by
  split
  · rw [timedProgram_byteTransfer, h]
    exact settled_of_settleTime_le (le_max_left ..)
  · exact h

/-- R120: an old binding is let go by a settled block. -/
theorem timedProgram_progRelease (h : settled T ph el = true) : timedProgram T (progRelease s) ph el = true := by
  unfold progRelease
  split
  · simp [timedProgram, h]
  · exact h

/-- R100, R101: an old binding is let go by a settled block, and leaves it settled. -/
theorem timedProgram_initBegin {rest : List MicroOp}
    (hrest : ∀ ph el, settled T ph el = true → timedProgram T rest ph el = true) (oe : Bit)
    (h : settled T ph el = true) : timedProgram T (initBegin oe ++ rest) ph el = true := by
  cases oe
  · exact hrest ph el h
  · simp [initBegin, timedProgram, h, hrest .low 0 rfl]

/-- R102: the entry into Faulted records nothing. -/
theorem timedProgram_faultEntry (st : Status) (h : settled T ph el = true) :
    timedProgram T (faultEntry st) ph el = true :=
  h

/-- R106, R118: the sequence waits out the settle interval before each transfer and after the last. -/
theorem timedProgram_initSequence (P : Params) (f c b : Bit) (rest : List MicroOp) :
    timedProgram P.timing (initSequence P f c b ++ rest) .low 0 =
      timedProgram P.timing rest .settling (max P.timing.T_SETTLE_MIN 0) := by
  simp only [initSequence, initWakeUp, initConfigure, List.append_assoc, List.cons_append, List.nil_append,
    timedProgram, timedProgram_nibbleTransfer, timedProgram_byteTransfer, settled_low, le_max_left,
    settled_of_settleTime_le, Bool.true_and]

theorem timedProgram_progInit (f c b : Bit) (h : settled s.cfg.timing ph el = true) :
    timedProgram s.cfg.timing (progInit f c b s) ph el = true := by
  unfold progInit
  split
  · exact timedProgram_initBegin (fun _ _ => timedProgram_faultEntry _) _ h
  split
  · exact timedProgram_initBegin (fun _ _ => timedProgram_faultEntry _) _ h
  · simp only [List.append_assoc]
    refine timedProgram_initBegin (fun ph el h => ?_) _ h
    simp [timedProgram, h, timedProgram_initSequence]

/-- R70, R91: whatever the word, its program is timed from a settled block on. -/
theorem timedProgram_requestProgram (w : ReqWord) (h : settled s.cfg.timing ph el = true) :
    timedProgram s.cfg.timing (requestProgram w s) ph el = true := by
  unfold requestProgram
  split
  · exact h
  split
  · exact timedProgram_progInit _ _ _ h
  split
  · exact timedProgram_sendInReady _ _ _ h
  split
  · exact timedProgram_sendInReady _ _ _ h
  · exact timedProgram_progRelease h

end timed

/-! ### What keeps the timing invariant -/

section invariant
variable {s : State}

theorem TimedLines.of_timingInv (h : TimingInv s) : TimedLines s := ⟨h.trace, h.last, h.first, h.bound⟩

/-- The invariant does not speak of the inputs. -/
theorem timingInv_nextInputs (taken : Bool) (h : TimingInv s) : TimingInv (nextInputs taken s) := by
  obtain ⟨htrace, hlast, hfirst, hbound, hflight, hidle⟩ := h
  constructor <;> simpa [showsLines, elapsed]

/-- R149: a reset block has an empty trace and nothing bound or in flight. -/
theorem timingInv_resetBlock (s : State) : TimingInv (resetBlock s) where
  trace := rfl
  last _ hr := by cases hr
  first _ := rfl
  bound h := by cases h
  inFlight h := by cases h
  idle _ := rfl

/-- R77: acceptance records nothing and takes no time; an idle block is settled, and so is fit for any request. -/
theorem timingInv_accept (h : TimingInv s) (w : ReqWord) : TimingInv (accept w (requestProgram w s) s) := by
  unfold accept
  split
  next hready =>
    have hb : s.BUSY = false := ((reqReady_iff s).1 hready).1
    exact {
      trace := h.trace
      last := h.last
      first := h.first
      bound := h.bound
      inFlight := fun _ => timedProgram_requestProgram w (h.idle hb)
      idle := fun hbusy => by cases hbusy }
  next => exact h

/-- R42: a program in flight goes on with the micro-operation at `upc`. -/
theorem timingInv_timedFromUpc {o : MicroOp} (h : TimingInv s) (hb : s.BUSY = true) (ho : s.PROG[s.upc]? = some o) :
    timedProgram s.cfg.timing (o :: s.PROG.drop (s.upc + 1)) (tracePhase s.trace) (elapsed s) = true := by
  obtain ⟨hlt, rfl⟩ := List.getElem?_eq_some_iff.1 ho
  rw [← List.drop_eq_getElem_cons hlt]
  exact h.inFlight hb

/-- R78: performing the micro-operation at `upc` keeps the invariant. -/
theorem timingInv_microOp {o : MicroOp} (hcontrol : ControlInv s) (h : TimingInv s) (hb : s.BUSY = true)
    (ho : s.PROG[s.upc]? = some o) : TimingInv (nextUpc (microOpDrawn o s)) := by
  obtain ⟨⟨htrace, hlast, hfirst, hbound⟩, hnext⟩ := timedLines_firstOp (.of_timingInv h)
    (controlInv_safeFromUpc hcontrol hb ho) (timingInv_timedFromUpc h hb ho)
  have hkeep := microOpDrawn_keepsRequest o s
  refine ⟨htrace, hlast, hfirst, hbound, fun hbusy => ?_, fun hidle => ?_⟩
  all_goals obtain ⟨st, rfl, hsettled⟩ | ⟨hcomplete, hrest⟩ := hnext
  · cases hbusy
  · simpa [hkeep.PROG, hkeep.upc, hkeep.cfg] using hrest
  · exact hsettled
  · cases ((microOpDrawn_BUSY hcomplete s).trans hb).symm.trans hidle

end invariant

/-- Settles O49, by the four kinds of step: what an idle block accepts is timed from its settled trace on, and what the
sequencer performs records in time and leaves the rest of its program timed. -/
theorem everyStepKeepsTheTimingInvariant : Obligations.EveryStepKeepsTheTimingInvariant := by
  intro s t hcontrol h hstep
  obtain ⟨-, rfl⟩ | ⟨-, hb, o, ho, rfl⟩ | ⟨-, -, -, u, hu, rfl⟩ | ⟨-, -, -, rfl⟩ := step_cases hstep
  · exact timingInv_nextInputs _ (timingInv_resetBlock s)
  · exact timingInv_nextInputs _ (timingInv_microOp hcontrol h hb ho)
  · cases hu.symm.trans (exec_decodeRequest s.ports.REQ s)
    exact timingInv_nextInputs _ (timingInv_accept h s.ports.REQ)
  · exact timingInv_nextInputs _ h

end Sys2Proof.Machine

/-! The byte and command sequencer (R93 to R99). A request that performs its byte is accepted with one byte transfer,
whose two pulses keep their floors; outside Ready it is turned away; and E rises at a safe `EnHigh` alone. -/
namespace Sys2Proof.Machine

open Sys2Proof.Safety

/-! ### CMD and DATA in Ready -/

/-- R74: a data byte has no floor of its own. -/
theorem byteFloor_data (P : Params) (b : Byte) : byteFloor P true b = 0 := rfl

/-- R96, R97: in Ready, CMD and DATA are accepted with the transfer of their byte, which then waits at least the floor
of that byte. -/
theorem exec_sendsByteWithItsFloor {i : Instr} {rs : Bit} {p : Byte} {s : State}
    (hi : (i = .cmd p ∧ rs = false) ∨ (i = .data p ∧ rs = true)) (hready : s.DSTATE = .ready) :
    ∃ w, exec i s =
      .next (accept w (byteTransfer s.cfg.timing p rs (byteFloor s.cfg rs p) ++ [.complete .ok]) s) := by
  obtain ⟨rfl, rfl⟩ | ⟨rfl, rfl⟩ := hi
  · exact ⟨cmdWord p, by rw [← progCmd_of_ready hready]; rfl⟩
  · exact ⟨dataWord p, by rw [byteFloor_data, ← progData_of_ready hready]; rfl⟩

/-- Settles O11: the byte is sent with the floor of a command byte. -/
theorem cmdInReadySendsItsByte : Obligations.CmdInReadySendsItsByte := by
  intro p s hs hready
  obtain ⟨w, hexec⟩ := exec_sendsByteWithItsFloor (.inl ⟨rfl, rfl⟩) hready
  rw [← byteFloor_command]
  exact runsTo_sendsByte hs hexec

/-- Settles O12: the byte is sent with no floor of its own. -/
theorem dataInReadySendsItsByte : Obligations.DataInReadySendsItsByte := by
  intro p s hs hready
  obtain ⟨w, hexec⟩ := exec_sendsByteWithItsFloor (.inr ⟨rfl, rfl⟩) hready
  exact runsTo_sendsByte hs hexec

/-! ### The two pulses of a byte -/

/-- R98: a chain with two gaps is two pulses, the second at least the first gap and the set-up after the first. -/
theorem pulseChain_two_iff {T : Timing} {t g1 g2 e : Nat} {ps : List (Nat × Nat)} :
    PulseChain T t [g1, g2] ps e ↔ ∃ r1 f1 r2 f2, ps = [(r1, f1), (r2, f2)] ∧
      t + T.T_SETUP_MIN ≤ r1 ∧ r1 + T.T_EN_HIGH_MIN ≤ f1 ∧
      f1 + g1 + T.T_SETUP_MIN ≤ r2 ∧ r2 + T.T_EN_HIGH_MIN ≤ f2 ∧ f2 + g2 ≤ e := by
  match ps with
  | [] | [_] | _ :: _ :: _ :: _ => simp [PulseChain]
  | [(r1, f1), (r2, f2)] => simp [PulseChain]

/-- R77, R93: a request accepted with a byte transfer and its completion shows the two pulses of the byte, chained by
the settle time and then by the floor after the byte. -/
theorem runsTo_chainsPulsesOfByte {i : Instr} {w : ReqWord} {b : Byte} {rs : Bit} {tpost : Nat} {st : Status}
    {s : State} (hs : canRun s) (he : s.E = false)
    (hexec : exec i s = .next (accept w (byteTransfer s.cfg.timing b rs tpost ++ [.complete st]) s)) :
    ∃ u new, runsTo i s 13 u ∧ u.trace = s.trace ++ new ∧ pulses new = bytePulses rs b ∧ (∀ r ∈ new, r.RS = rs) ∧
      PulseChain s.cfg.timing s.now [s.cfg.timing.T_SETTLE_MIN, max s.cfg.timing.T_SETTLE_MIN tpost]
        (pulseTimes new) u.now := by
  obtain ⟨-, new, htrace, -, hpulses, hchain, hrs⟩ := sends_byte s.cfg.timing b rs tpost
    (accepted w (byteTransfer s.cfg.timing b rs tpost ++ [.complete st]) s) he
  exact ⟨_, new, runsTo_of_accept hs hexec (byteTransfer_noComplete _ _ _ _), by simpa using htrace, hpulses,
    hrs rs (by simp [bytePulses]), by simpa using hchain⟩

/-- Settles O15: an idle block has E low, so the request shows the two chained pulses of its byte. -/
theorem performedByteEmitsTwoSpacedPulses : Obligations.PerformedByteEmitsTwoSpacedPulses := by
  intro i rs p s hi hinv hs hready
  obtain ⟨w, hexec⟩ := exec_sendsByteWithItsFloor hi hready
  obtain ⟨-, he, -⟩ := idleSafe_iff.1 (hinv.idle hs.1)
  obtain ⟨u, new, hruns, htrace, hpulses, hrs, hchain⟩ := runsTo_chainsPulsesOfByte hs he hexec
  obtain ⟨r1, f1, r2, f2, htimes, -, hwidth1, hgap, hwidth2, hend⟩ := pulseChain_two_iff.1 hchain
  refine ⟨u, new, hruns, htrace, hpulses, hrs, r1, f1, r2, f2, htimes, hwidth1, hwidth2, hgap, by omega, ?_⟩
  rintro rfl hlong
  rw [byteFloor_command, if_pos hlong] at hend
  omega

/-! ### Outside Ready -/

theorem progCmd_of_notReady {s : State} (h : s.DSTATE ≠ .ready) (p : Byte) : progCmd p s = turnedAway .notReady :=
  if_neg h

theorem progData_of_notReady {s : State} (h : s.DSTATE ≠ .ready) (p : Byte) : progData p s = turnedAway .notReady :=
  if_neg h

/-- R34, R95: between requests a block that is not Ready is Uninitialized or Faulted. -/
theorem idle_notReady_dstate {s : State} (h : ControlInv s) (hb : s.BUSY = false) (hready : s.DSTATE ≠ .ready) :
    s.DSTATE = .uninitialized ∨ s.DSTATE = .faulted := by
  obtain ⟨hinit, -⟩ := idleSafe_iff.1 (h.idle hb)
  cases hd : s.DSTATE
  case uninitialized => exact .inl rfl
  case initializing => exact absurd hd hinit
  case ready => exact absurd hd hready
  case faulted => exact .inr rfl

/-- Settles O14: whichever its form, the request is accepted with the program of a CMD or of a DATA, which outside Ready
turns it away. -/
theorem sendingOutsideReadyIsNotReady : Obligations.SendingOutsideReadyIsNotReady := by
  intro i s hi hs hready
  refine ⟨?_, fun hinv => idle_notReady_dstate hinv hs.1 hready⟩
  have hcmd (p : Byte) : execCmd p s = .next (accept (cmdWord p) (turnedAway .notReady) s) := by
    rw [execCmd, progCmd_of_notReady hready]
  have hdata (p : Byte) : execData p s = .next (accept (dataWord p) (turnedAway .notReady) s) := by
    rw [execData, progData_of_notReady hready]
  obtain ⟨p, rfl⟩ | ⟨p, rfl⟩ | rfl | rfl | ⟨col, rfl⟩ | ⟨col, rfl⟩ | rfl | rfl := hi
  case inr.inl => exact runsTo_turnedAway hs (hdata p)
  all_goals exact runsTo_turnedAway hs (hcmd _)

/-! ### The display's side of a byte -/

/-- R90, R93: out of reset, a display row whose program is a byte transfer sends the byte and leaves the rest alone. -/
theorem exec_sendsByteOfDisplayProgram {i : Instr} {b : Byte} {rs : Bit} {tpost : Nat} {s : State}
    (hi : i.isRequest = false) (hr : s.ports.RESET = false)
    (hprog : displayProgram i s = byteTransfer s.cfg.timing b rs tpost) :
    ∃ u, exec i s = .next u ∧ onlyLinesAndTime s u ∧ byteSent b rs tpost s u := by
  refine ⟨perform (byteTransfer s.cfg.timing b rs tpost) s, ?_, (byteTransfer_onlyLinesAndTime ..).fields,
    byteSent_byteTransfer ..⟩
  rw [exec_displayProgram hi, hprog, transfer, hr]
  rfl

/-- Settles O31: both rows are byte transfers, with the floor of their byte. -/
theorem commandAndDataTransfersSendTheirByte : Obligations.CommandAndDataTransfersSendTheirByte := by
  intro p s hr
  refine ⟨exec_sendsByteOfDisplayProgram rfl hr ?_, exec_sendsByteOfDisplayProgram rfl hr ?_⟩
  · rw [← byteFloor_command]
    rfl
  · rw [← byteFloor_data s.cfg p]
    rfl

/-! ### Where E rises -/

/-- R77: acceptance leaves E alone. -/
@[simp] theorem accept_E (w : ReqWord) (prog : List MicroOp) (s : State) : (accept w prog s).E = s.E := by
  unfold accept
  split
  · exact accepted_E w prog s
  · rfl

/-- R81: of the micro-operations only `EnHigh` raises E. -/
theorem eq_enHigh_of_raisesE {o : MicroOp} {s : State} (hlow : s.E = false) (hhigh : (microOpDrawn o s).E = true) :
    o = .enHigh := by
  cases o
  case enHigh => rfl
  case enLow | bind | release => cases hhigh
  all_goals cases hlow.symm.trans hhigh

/-- A step that raises E performs an `EnHigh` of the program in flight. -/
theorem step_raisesE {s t : State} (hstep : step s = .next t) (hlow : s.E = false) (hhigh : t.E = true) :
    s.BUSY = true ∧ s.PROG[s.upc]? = some .enHigh := by
  obtain ⟨-, rfl⟩ | ⟨-, hb, o, ho, rfl⟩ | ⟨-, -, -, u, hu, rfl⟩ | ⟨-, -, -, rfl⟩ := step_cases hstep
  all_goals rw [nextInputs_E] at hhigh
  · cases hhigh
  · exact ⟨hb, eq_enHigh_of_raisesE hlow hhigh ▸ ho⟩
  · obtain ⟨w, prog, hexec⟩ := exec_eq_accept (decodeRequest_isRequest s.ports.REQ) s
    cases hu.symm.trans hexec
    cases hlow.symm.trans ((accept_E ..).symm.trans hhigh)
  · cases hlow.symm.trans hhigh

/-- R90, R94, R99: a safe program raises E while bound, where its request may pulse, with the RS of the request. -/
theorem safeProgram_enHigh {op : BitVec 3} {rest : List MicroOp} {ds : DisplayState} {oe e rs : Bit}
    (h : safeProgram op (.enHigh :: rest) ds oe e rs = true) :
    oe = true ∧ mayPulse op ds = true ∧ rs = requestRs op := by
  simp only [safeProgram, Bool.and_eq_true, beq_iff_eq] at h
  obtain ⟨⟨⟨⟨hoe, -⟩, hpulse⟩, hrs⟩, -⟩ := h
  exact ⟨hoe, hpulse, hrs⟩

/-- R99: the requests that pulse, and where. -/
theorem mayPulse_iff {op : BitVec 3} {ds : DisplayState} :
    mayPulse op ds = true ↔
      (ds = .ready ∧ (op = 0b010#3 ∨ op = 0b011#3)) ∨ (ds = .initializing ∧ op = 0b001#3) := by
  revert op
  cases ds <;> decide

/-- Settles O47: the rise is an `EnHigh` at the head of what is left of a safe program, and its RS is that of the OP. -/
theorem enableRisesOnlyInReadyOrInsideInit : Obligations.EnableRisesOnlyInReadyOrInsideInit := by
  intro s t hinv hstep hlow hhigh
  obtain ⟨hb, ho⟩ := step_raisesE hstep hlow hhigh
  obtain ⟨hoe, hpulse, hrs⟩ := safeProgram_enHigh (controlInv_safeFromUpc hinv hb ho)
  refine ⟨hb, hoe, ?_⟩
  obtain ⟨hready, hop | hop⟩ | ⟨hinit, hop⟩ := mayPulse_iff.1 hpulse
  all_goals rw [hop] at hrs
  · exact .inl ⟨hready, .inl ⟨hop, hrs⟩⟩
  · exact .inl ⟨hready, .inr ⟨hop, hrs⟩⟩
  · exact .inr ⟨hinit, hop, hrs⟩

end Sys2Proof.Machine

/-! The initialization (R100 to R118). INIT lets an old binding go, then either enters Faulted or binds, powers up and
sends the sequence, whose fourteen transfers are chained pulses; the display's rows of the sequence are those
transfers. -/
namespace Sys2Proof.Machine

open Sys2Proof.Safety

/-! ### How INIT begins -/

/-- The records of the release of a binding, if there is one (R85, R101). -/
def releaseRecords (s : State) : List PinRecord :=
  if s.OE then [⟨s.now, true, false, false, 0#4⟩, ⟨s.now, false, false, false, 0#4⟩] else []

/-- R100, R101: the state once INIT has begun: Initializing, an old binding let go; without one the registers of the
lines are kept. -/
def initBegun (s : State) : State :=
  { s with
    ISTEP := .bind, DSTATE := .initializing, OE := false, REL := s.REL || s.OE, RS := !s.OE && s.RS,
    E := !s.OE && s.E, D := if s.OE then 0#4 else s.D, trace := s.trace ++ releaseRecords s }

@[simp] theorem perform_initBegin (s : State) : perform (initBegin s.OE) s = initBegun s := by
  obtain ⟨cfg, DSTATE, OE, REL⟩ := s
  cases OE <;> cases REL <;> simp [initBegin, initBegun, releaseRecords, opRelease, record, opSetState, opStep]

theorem initBegin_length (oe : Bit) : (initBegin oe).length = if oe then 3 else 2 := by
  cases oe <;> rfl

theorem initBegin_noComplete (oe : Bit) : ∀ op ∈ initBegin oe, ∀ st, op ≠ .complete st := by
  cases oe <;> simp [initBegin]

/-- R77, R78: after as many steps as the beginning of its program has micro-operations, a request accepted by an idle
block has performed them. -/
theorem runsTo_of_accept_append {i : Instr} {w : ReqWord} {ops rest : List MicroOp} {s : State} (hs : canRun s)
    (hexec : exec i s = .next (accept w (ops ++ rest) s)) (hc : ∀ op ∈ ops, ∀ st, op ≠ .complete st) :
    runsTo i s ops.length (advance ops.length (perform ops (accepted w (ops ++ rest) s))) := by
  rw [accept_of_canRun hs] at hexec
  exact ⟨_, hexec, run_program ops rest _ hs.2 rfl rfl fun op hop => hc op (List.mem_of_mem_dropLast hop)⟩

/-- R77: INIT is accepted with its program. -/
theorem exec_init (f c b : Bit) (s : State) :
    exec (.init f c b) s = .next (accept (initWord f c b) (progInit f c b s) s) := rfl

section runs
variable {f c b : Bit} {s : State} (hs : canRun s)
include hs

/-- R77, R100: after two steps INIT has made the block Initializing. -/
theorem runsTo_initializing {rest : List MicroOp} (hprog : progInit f c b s = initBegin s.OE ++ rest) :
    ∃ t, runsTo (.init f c b) s 2 t ∧ t.DSTATE = .initializing := by
  have hexec := exec_init f c b s
  rw [hprog, initBegin, List.append_assoc] at hexec
  exact ⟨_, runsTo_of_accept_append hs hexec (by simp), by simp⟩

/-- R77, R78, R101: INIT runs to the end of its program, of which the beginning is done. -/
theorem runsTo_init {ops : List MicroOp} {st : Status}
    (hprog : progInit f c b s = initBegin s.OE ++ ops ++ [.complete st]) (hc : ∀ op ∈ ops, ∀ st, op ≠ .complete st) :
    ∃ n, runsTo (.init f c b) s (if s.OE then ops.length + 4 else ops.length + 3)
      (advance n (opComplete st (perform ops (initBegun (accepted (initWord f c b) (progInit f c b s) s))))) := by
  have hruns := runsTo_of_accept (ops := initBegin s.OE ++ ops) (st := st) hs (by rw [exec_init f c b s, hprog])
    (by simpa [or_imp, forall_and] using ⟨initBegin_noComplete s.OE, hc⟩)
  have hlength : (initBegin s.OE ++ ops).length + 1 = if s.OE then ops.length + 4 else ops.length + 3 := by
    rw [List.length_append, initBegin_length]
    split <;> omega
  have hperform (t : State) (ht : t.OE = s.OE) :
      perform (initBegin s.OE ++ ops ++ [.complete st]) t = opComplete st (perform ops (initBegun t)) := by
    rw [perform_append, perform_append, ← ht, perform_initBegin]
    rfl
  rw [hlength, hperform _ (accepted_OE ..), ← hprog] at hruns
  exact ⟨_, hruns⟩

end runs

/-! ### A missing prerequisite -/

/-- R102: the program of an INIT without a prerequisite, BIND_OK being looked at first. -/
theorem progInit_of_missing {s : State} (h : s.ports.BIND_OK = false ∨ s.ports.TIMING_OK = false) (f c b : Bit) :
    progInit f c b s =
      initBegin s.OE ++ faultEntry (if s.ports.BIND_OK then .timingPrereq else .pinUnavailable) := by
  cases hbind : s.ports.BIND_OK
  · simp [progInit, hbind]
  · simp [progInit, hbind, h.resolve_left (by simp [hbind])]

/-- Settles O22: the block enters Initializing, an old binding is let go, and the entry into Faulted does the rest. -/
theorem initFailsIntoFaulted : Obligations.InitFailsIntoFaulted := by
  intro f c b s hs hmissing
  have hprog := progInit_of_missing hmissing f c b
  obtain ⟨n, hruns⟩ := runsTo_init (ops := [.step .fault, .setState .faulted]) hs
    (by simpa [faultEntry] using hprog) (by simp)
  refine ⟨_, hruns, ?_, runsTo_initializing hs hprog, ?_⟩
  · simp [completedWith, initBegun]
  · cases hoe : s.OE <;> simp [initBegun, linesLow, releaseRecords, hoe]

/-! ### The floors of a chain of pulses -/

section chain
variable {T : Timing} {t e : Nat} {ps : List (Nat × Nat)}

/-- R16: gaps that meet their floors meet lower ones. -/
theorem PulseChain.lowerGaps {gs gs' : List Nat} (hgs : List.Forall₂ (· ≤ ·) gs' gs) (h : PulseChain T t gs ps e) :
    PulseChain T t gs' ps e := by
  induction hgs generalizing t ps with
  | nil => exact h
  | cons hg _ ih =>
    cases ps with
    | nil => exact h
    | cons p ps =>
      obtain ⟨hsetup, hwidth, hrest⟩ := h
      exact ⟨hsetup, hwidth, ih (hrest.earlier (by omega))⟩

/-- R118: the first rise of a chain comes the set-up after its beginning. -/
theorem PulseChain.setup_le_first {gs : List Nat} {p : Nat × Nat} (h : PulseChain T t gs (p :: ps) e) :
    t + T.T_SETUP_MIN ≤ p.1 := by
  cases gs with
  | nil => exact h.elim
  | cons => exact h.1

/-- R118: every pulse of a chain is wide enough. -/
theorem PulseChain.pulsesAtLeast {gs : List Nat} (h : PulseChain T t gs ps e) :
    pulsesAtLeast T.T_EN_HIGH_MIN ps = true := by
  induction gs generalizing t ps with
  | nil =>
    cases ps with
    | nil => rfl
    | cons => exact h.elim
  | cons g gs ih =>
    cases ps with
    | nil => exact h.elim
    | cons p ps =>
      obtain ⟨-, hwidth, hrest⟩ := h
      simpa [Safety.pulsesAtLeast, hwidth] using ih hrest

/-- R118: between the pulses of a chain there are its gaps, the last apart, each with the set-up of the next rise. -/
theorem PulseChain.gapsAtLeast {gs : List Nat} {g : Nat} (h : PulseChain T t (gs ++ [g]) ps e) :
    gapsAtLeast (gs.map (· + T.T_SETUP_MIN)) ps = true := by
  induction gs generalizing t ps with
  | nil =>
    match ps, h with
    | [_], _ => rfl
  | cons g' gs ih =>
    match ps, h with
    | [_], ⟨_, _, hrest⟩ => cases gs <;> exact hrest.elim
    | p :: q :: ps, ⟨_, _, hrest⟩ =>
      have hgap := hrest.setup_le_first
      simpa [Safety.gapsAtLeast, ← Nat.add_assoc, hgap] using ih hrest

end chain

/-! ### The transfers of the sequence -/

@[simp] theorem byteTransfer_D (T : Timing) (b : Byte) (rs : Bit) (tpost : Nat) (s : State) :
    (perform (byteTransfer T b rs tpost) s).D = lowNibble b := by
  rw [byteTransfer, perform_append]; rfl

/-- R90, R106: what a sequence of transfers leaves alone. -/
theorem Sends.fields {T : Timing} {qs : List (Bit × Nibble)} {gs : List Nat} {s u : State} (h : Sends T qs gs s u) :
    u.cfg = s.cfg ∧ u.OE = s.OE ∧ u.REL = s.REL ∧ u.CFG_F = s.CFG_F ∧ u.CFG_C = s.CFG_C ∧ u.CFG_B = s.CFG_B ∧
      u.responses = s.responses ∧ u.earlier = s.earlier := by
  rw [h.frame]
  exact ⟨rfl, rfl, rfl, rfl, rfl, rfl, rfl, rfl⟩

/-- The micro-operations complete no request and, performed from any state with E low, show the pulses `qs` with at
least the gaps `gs` after them and leave E low. -/
structure Emits (T : Timing) (ops : List MicroOp) (qs : List (Bit × Nibble)) (gs : List Nat) : Prop where
  noComplete : ∀ op ∈ ops, ∀ st, op ≠ .complete st
  sends : ∀ s : State, s.E = false → Sends T qs gs s (perform ops s)
  low : ∀ s : State, s.E = false → (perform ops s).E = false

theorem Emits.append {T : Timing} {ops ops' : List MicroOp} {qs qs' : List (Bit × Nibble)} {gs gs' : List Nat}
    (h : Emits T ops qs gs) (h' : Emits T ops' qs' gs') : Emits T (ops ++ ops') (qs ++ qs') (gs ++ gs') where
  noComplete := List.forall_mem_append.2 ⟨h.noComplete, h'.noComplete⟩
  sends s he := by
    rw [perform_append]
    exact (h.sends s he).trans (h'.sends _ (h.low s he))
  low s he := by
    rw [perform_append]
    exact h'.low _ (h.low s he)

section emits
variable (T : Timing) (i : InitStep) (rs : Bit) (tpost : Nat)

theorem emits_step : Emits T [.step i] [] [] where
  noComplete := by simp
  sends s _ := sends_step T i s
  low _ he := he

theorem emits_nibble (v : Nibble) : Emits T (nibbleTransfer T v rs tpost) [(rs, v)] [max T.T_SETTLE_MIN tpost] where
  noComplete := nibbleTransfer_noComplete T v rs tpost
  sends := sends_nibble T v rs tpost
  low s _ := nibbleTransfer_E T v rs tpost s

theorem emits_byte (b : Byte) :
    Emits T (byteTransfer T b rs tpost) (bytePulses rs b) [T.T_SETTLE_MIN, max T.T_SETTLE_MIN tpost] where
  noComplete := byteTransfer_noComplete T b rs tpost
  sends := sends_byte T b rs tpost
  low s _ := byteTransfer_E T b rs tpost s

end emits

/-- R106: the sequence after its power-up wait. -/
def initTransfers (P : Params) (f c b : Bit) : List MicroOp :=
  (initWakeUp P.timing).drop 2 ++ initConfigure P f c b

theorem initSequence_eq (P : Params) (f c b : Bit) :
    initSequence P f c b =
      ([.step .powerup, .wait P.timing.T_POWERUP_MIN] : List MicroOp) ++ initTransfers P f c b := rfl

section initTransfers
variable (P : Params) (f c b : Bit)

/-- R115: the last of the transfers leaves RS and the data lines as its second nibble has them. -/
theorem initTransfers_lastNibble (s : State) :
    (perform (initTransfers P f c b) s).RS = false ∧
      (perform (initTransfers P f c b) s).D = lowNibble (displayOnByte P.cmds c b) := by
  simp [initTransfers, initConfigure]

/-- R117: the fourteen pulses of the sequence. -/
def initPulses (C : CommandBytes) (f c b : Bit) : List (Bit × Nibble) :=
  [(false, 0x3#4), (false, 0x3#4), (false, 0x3#4), (false, 0x2#4)] ++ bytePulses false (functionSetByte C f) ++
    bytePulses false C.DISPOFF ++ bytePulses false C.CLEARDISP ++ bytePulses false C.ENTRYMODE ++
    bytePulses false (displayOnByte C c b)

/-- R118: the floors of the gaps after the pulses of the sequence, the last apart. -/
def initGaps (T : Timing) : List Nat :=
  [T.T_WAKE1_MIN, T.T_WAKE2_MIN, T.T_WAKE2_MIN] ++ List.replicate 6 T.T_SETTLE_MIN ++ [T.T_CLEAR_MIN] ++
    List.replicate 3 T.T_SETTLE_MIN

/-- R106, R117: each step of the sequence sends its transfer. -/
theorem initTransfers_emits :
    ∃ gs, Emits P.timing (initTransfers P f c b) (initPulses P.cmds f c b) gs ∧
      List.Forall₂ (· ≤ ·) (initGaps P.timing ++ [P.timing.T_SETTLE_MIN]) gs := by
  have hnibble (i v tpost) := (emits_step P.timing i).append (emits_nibble P.timing false tpost v)
  have hbyte (i b tpost) := (emits_step P.timing i).append (emits_byte P.timing false tpost b)
  have hwakeUp := (((hnibble .wake1 WAKE_NIBBLE P.timing.T_WAKE1_MIN).append
    (hnibble .wake2 WAKE_NIBBLE P.timing.T_WAKE2_MIN)).append
    (hnibble .wake3 WAKE_NIBBLE P.timing.T_WAKE2_MIN)).append (hnibble .mode4 MODE4_NIBBLE 0)
  have hconfigure := ((((hbyte .funcset (functionSetByte P.cmds f) 0).append (hbyte .dispoff P.cmds.DISPOFF 0)).append
    (hbyte .clear P.cmds.CLEARDISP P.timing.T_CLEAR_MIN)).append (hbyte .entry P.cmds.ENTRYMODE 0)).append
    (hbyte .dispon (displayOnByte P.cmds c b) 0)
  exact ⟨_, hwakeUp.append hconfigure, by simp [initGaps, List.replicate]⟩

end initTransfers

/-! ### A successful INIT -/

/-- R103, R108: what INIT does between its beginning and the first transfer. -/
def initPowerUp (T : Timing) (f c b : Bit) : List MicroOp :=
  [.bind, .latch f c b, .step .powerup, .wait T.T_POWERUP_MIN]

/-- R100: the program of an INIT with both prerequisites. -/
theorem progInit_of_prerequisites {s : State} (hbind : s.ports.BIND_OK = true) (htiming : s.ports.TIMING_OK = true)
    (f c b : Bit) :
    progInit f c b s = initBegin s.OE ++
      (initPowerUp s.cfg.timing f c b ++ initTransfers s.cfg f c b ++
        ([.step .done, .setState .ready] : List MicroOp)) ++ [.complete .ok] := by
  simp [progInit, hbind, htiming, initPowerUp, initSequence_eq]

/-- `v` is `s` after the transfers of a successful INIT: an old binding let go, the lines bound and as the last nibble
left them, the bits latched, and the pulses of the sequence shown, the power-up wait before them. -/
structure InitSent (f c b : Bit) (s v : State) : Prop where
  lines : v.OE = true ∧ v.RS = false ∧ v.E = false ∧ v.D = lowNibble (displayOnByte s.cfg.cmds c b)
  released : v.REL = (s.REL || s.OE)
  config : v.CFG_F = f ∧ v.CFG_C = c ∧ v.CFG_B = b ∧ v.cfg = s.cfg
  observed : v.responses = s.responses ∧ v.earlier = s.earlier
  shows : ∃ new, v.trace = s.trace ++ releaseRecords s ++ [⟨s.now, true, false, false, 0#4⟩] ++ new ∧
    pulses new = initPulses s.cfg.cmds f c b ∧
    PulseChain s.cfg.timing (s.now + s.cfg.timing.T_POWERUP_MIN) (initGaps s.cfg.timing ++ [s.cfg.timing.T_SETTLE_MIN])
      (pulseTimes new) v.now

/-- R77: acceptance writes nothing that INIT's transfers read. -/
theorem InitSent.of_accepted {f c b : Bit} {w : ReqWord} {prog : List MicroOp} {s v : State}
    (h : InitSent f c b (accepted w prog s) v) : InitSent f c b s v :=
  ⟨h.lines, h.released, h.config, h.observed, h.shows⟩

/-- R101, R103, R106: INIT's beginning, its power-up and its transfers, one after the other. -/
theorem initSent_perform (f c b : Bit) (s : State) :
    InitSent f c b s (perform (initPowerUp s.cfg.timing f c b ++ initTransfers s.cfg f c b) (initBegun s)) := by
  obtain ⟨gs, hemits, hgs⟩ := initTransfers_emits s.cfg f c b
  have hsends := hemits.sends (perform (initPowerUp s.cfg.timing f c b) (initBegun s)) rfl
  have hlow := hemits.low (perform (initPowerUp s.cfg.timing f c b) (initBegun s)) rfl
  obtain ⟨hcfg, hoe, hrel, hf, hc, hb, hresponses, hearlier⟩ := hsends.fields
  obtain ⟨-, new, htrace, -, hpulses, hchain, -⟩ := hsends
  obtain ⟨hrs, hd⟩ := initTransfers_lastNibble s.cfg f c b (perform (initPowerUp s.cfg.timing f c b) (initBegun s))
  rw [perform_append]
  exact ⟨⟨hoe, hrs, hlow, hd⟩, hrel, ⟨hf, hc, hb, hcfg⟩, ⟨hresponses, hearlier⟩, new, htrace, hpulses,
    (hchain.lowerGaps hgs).earlier (by simp [initPowerUp, initBegun])⟩

/-- R100, R116: with both prerequisites INIT runs to its end, which is the end of its transfers but for the state and
the response. -/
theorem runsTo_initSent {s : State} (hs : canRun s) (hbind : s.ports.BIND_OK = true)
    (htiming : s.ports.TIMING_OK = true) (f c b : Bit) :
    ∃ n v, InitSent f c b s v ∧ runsTo (.init f c b) s (if s.OE then 103 else 102)
      (advance n (opComplete .ok (opSetState .ready (opStep .done v)))) := by
  obtain ⟨gs, hemits, -⟩ := initTransfers_emits s.cfg f c b
  obtain ⟨n, hruns⟩ := runsTo_init hs (progInit_of_prerequisites hbind htiming f c b)
    (by simpa [initPowerUp, or_imp, forall_and] using hemits.noComplete)
  rw [perform_append] at hruns
  exact ⟨n, _, (initSent_perform f c b _).of_accepted, hruns⟩

/-- Settles O19: the transfers, their pulses and the completion. -/
theorem initSucceedsAndSendsTheSequence : Obligations.InitSucceedsAndSendsTheSequence := by
  intro f c b s hs hbind htiming
  obtain ⟨n, v, hsent, hruns⟩ := runsTo_initSent hs hbind htiming f c b
  obtain ⟨⟨hoe, hrs, he, hd⟩, hrel, ⟨hf, hc, hb, hcfg⟩, ⟨hresponses, hearlier⟩, new, htrace, hpulses, -⟩ := hsent
  refine ⟨_, new, hruns, ?_, ?_⟩
  · simp [completedWith, hresponses]
  · simp [hoe, hrs, he, hd, hrel, hf, hc, hb, hcfg, hearlier, htrace, hpulses, releaseRecords, initPulses, lowNibble]

/-- R84, R85: the records up to that of `Bind` have E low. -/
theorem recordsUntilBind_noPulse (s : State) :
    EndsLow (releaseRecords s ++ [⟨s.now, true, false, false, 0#4⟩]) ∧
      pulseTimes (releaseRecords s ++ [⟨s.now, true, false, false, 0#4⟩]) = [] := by
  unfold releaseRecords
  split <;> simp [EndsLow, pulseTimes]

/-- Settles O21: no pulse before the sequence, whose chain keeps the floors. -/
theorem initGapsMeetTheirFloors : Obligations.InitGapsMeetTheirFloors := by
  intro f c b s hs hbind htiming
  obtain ⟨n, v, hsent, hruns⟩ := runsTo_initSent hs hbind htiming f c b
  obtain ⟨new, htrace, -, hchain⟩ := hsent.shows
  obtain ⟨hlow, hnone⟩ := recordsUntilBind_noPulse s
  have htimes := pulseTimes_append _ new hlow
  rw [hnone, List.nil_append] at htimes
  cases hnew : pulseTimes new
  all_goals rw [hnew] at hchain
  case nil => exact hchain.elim
  case cons first rest =>
    exact ⟨_, _, first, rest, hruns, by simp [htrace], htimes.trans hnew, hchain.setup_le_first,
      hchain.pulsesAtLeast, hchain.gapsAtLeast⟩

/-! ### The bytes and the display's rows of the sequence -/

/-- R105: the font bit is bit 2. -/
theorem functionSetByte_eq (C : CommandBytes) (f : Bit) :
    functionSetByte C f = C.FUNCSET_BASE ||| (if f then 0b100#8 else 0#8) := by
  cases f <;> rfl

/-- R105: the cursor bit is bit 1 and the blink bit is bit 0. -/
theorem displayOnByte_eq (C : CommandBytes) (c b : Bit) :
    displayOnByte C c b = C.DISPON_BASE ||| (if c then 0b10#8 else 0#8) ||| (if b then 0b1#8 else 0#8) := by
  cases c <;> cases b <;> rfl

/-- Settles O20: the configured bytes by their bits, and the defaults as they are written. -/
theorem defaultInitBytesAreThoseOfTheRules : Obligations.DefaultInitBytesAreThoseOfTheRules := by
  refine ⟨fun C f c b => ⟨functionSetByte_eq C f, displayOnByte_eq C c b⟩, fun f c b => ⟨?_, ?_, ?_⟩⟩
  · rw [functionSetByte_default]
    cases f <;> rfl
  · rw [displayOnByte_default]
    cases c <;> cases b <;> rfl
  · decide

/-- R90: a nibble transfer sends its nibble. -/
theorem nibbleSent_nibbleTransfer (v : Nibble) (rs : Bit) (tpost : Nat) (s : State) :
    nibbleSent v rs tpost s (perform (nibbleTransfer s.cfg.timing v rs tpost) s) :=
  ⟨rfl, rfl, rfl, nibbleTransfer_trace .., nibbleTransfer_now .., rfl⟩

/-- R90: out of reset, a display row whose program is a nibble transfer sends the nibble and leaves the rest alone. -/
theorem exec_sendsNibbleOfDisplayProgram {i : Instr} {v : Nibble} {rs : Bit} {tpost : Nat} {s : State}
    (hi : i.isRequest = false) (hr : s.ports.RESET = false)
    (hprog : displayProgram i s = nibbleTransfer s.cfg.timing v rs tpost) :
    ∃ u, exec i s = .next u ∧ onlyLinesAndTime s u ∧ nibbleSent v rs tpost s u := by
  refine ⟨perform (nibbleTransfer s.cfg.timing v rs tpost) s, ?_, (nibbleTransfer_onlyLinesAndTime ..).fields,
    nibbleSent_nibbleTransfer ..⟩
  rw [exec_displayProgram hi, hprog, transfer, hr]
  rfl

/-- R109: the first wake nibble has a gap of its own. -/
theorem wakeGap_wake1 (T : Timing) : wakeGap T .wake1 = T.T_WAKE1_MIN := rfl

/-- R109, and log 14 outside the wake steps: any other has the second gap. -/
theorem wakeGap_of_ne_wake1 (T : Timing) {i : InitStep} (h : i ≠ .wake1) : wakeGap T i = T.T_WAKE2_MIN := if_neg h

/-- Settles O28: a wake nibble is sent with the gap of its step. -/
theorem wakeTransferIsOnePulseOfThree : Obligations.WakeTransferIsOnePulseOfThree := by
  intro s hr
  obtain ⟨u, hexec, honly, hsent⟩ := exec_sendsNibbleOfDisplayProgram (i := .lcdWake) rfl hr rfl
  refine ⟨u, hexec, honly, fun hstep => ?_, fun hstep => ?_⟩
  · rwa [hstep, wakeGap_wake1] at hsent
  · rwa [wakeGap_of_ne_wake1 _ (by rcases hstep with h | h <;> simp [h])] at hsent

/-- Settles O29: the mode nibble has no gap of its own. -/
theorem mode4TransferIsOnePulseOfTwo : Obligations.Mode4TransferIsOnePulseOfTwo := fun _ hr =>
  exec_sendsNibbleOfDisplayProgram rfl hr rfl

/-- Settles O30: each row's program is the transfer of its byte. -/
theorem initByteTransfersSendTheirBytes : Obligations.InitByteTransfersSendTheirBytes := fun _ _ _ _ hr =>
  ⟨exec_sendsByteOfDisplayProgram rfl hr rfl, exec_sendsByteOfDisplayProgram rfl hr rfl,
    exec_sendsByteOfDisplayProgram rfl hr rfl, exec_sendsByteOfDisplayProgram rfl hr rfl,
    exec_sendsByteOfDisplayProgram rfl hr rfl⟩

end Sys2Proof.Machine

/-! Teardown (R120). RELEASE is accepted with a program that its binding decides: with one the lines are let go first;
what follows leaves the lines alone. -/
namespace Sys2Proof.Machine

open Sys2Proof.Safety

/-- R120: with a binding the program of RELEASE begins by letting the lines go. -/
theorem progRelease_of_bound {s : State} (h : s.OE = true) :
    progRelease s = ([.release, .step .idle, .setState .uninitialized] : List MicroOp) ++ [.complete .ok] := by
  rw [progRelease, if_pos h]
  rfl

/-- R120: without a binding the program of RELEASE has no micro-operation on the lines. -/
theorem progRelease_of_unbound {s : State} (h : s.OE = false) :
    progRelease s = ([.step .idle, .setState .uninitialized] : List MicroOp) ++ [.complete .ok] := by
  rw [progRelease, h]
  rfl

/-- R77, R120: RELEASE runs to the end of its program. -/
theorem runsTo_release {s : State} (hs : canRun s) {ops : List MicroOp} {st : Status}
    (hprog : progRelease s = ops ++ [.complete st]) (hc : ∀ op ∈ ops, ∀ st, op ≠ .complete st) :
    runsTo .release s (ops.length + 1) (advance (ops.length + 1)
      (opComplete st (perform ops (accepted releaseWord (ops ++ [.complete st]) s)))) := by
  have hexec : exec .release s = .next (accept releaseWord (ops ++ [.complete st]) s) := by
    rw [← hprog]
    rfl
  simpa using runsTo_of_accept hs hexec hc

/-- Settles O17: the run lets the lines go, its two records being those of `Release`, and then leaves them alone. -/
theorem releaseWithABindingLetsTheLinesGoLow : Obligations.ReleaseWithABindingLetsTheLinesGoLow := by
  intro s hs hbound
  refine ⟨_, runsTo_release hs (progRelease_of_bound hbound) (by simp), ?_, ?_⟩
  · simp [completedWith]
  · simp [linesLow]

/-- Settles O18: the run has no micro-operation on the lines, and the block stays unbound. -/
theorem releaseWithoutABindingTouchesNoLine : Obligations.ReleaseWithoutABindingTouchesNoLine := by
  intro s hs hunbound
  refine ⟨_, runsTo_release hs (progRelease_of_unbound hunbound) (by simp), ?_, ?_⟩
  · simp [completedWith]
  · simp [hunbound]

end Sys2Proof.Machine

/-! The host software (R122 to R133). A print fills the rest of the cursor's row and, from line 0, the row of line 1;
what the host software answers is the status the block answers; a write keeps its text, whatever the block says. -/
namespace Sys2Proof.Machine

open Sys2Proof.Safety

/-! ### The requests among the actions -/

@[simp] theorem requestsOf_nil : requestsOf [] = [] := rfl
@[simp] theorem requestsOf_request_cons (i : Instr) (acts : List ClientAction) :
    requestsOf (.request i :: acts) = i :: requestsOf acts := rfl

/-- The character a request sends, if it is a DATA. -/
def dataByte? : Instr → Option Byte
  | .data p => some p
  | _ => none

theorem dataBytesOf_eq_filterMap (acts : List ClientAction) :
    dataBytesOf acts = (requestsOf acts).filterMap dataByte? := rfl

theorem filterMap_dataByte?_data (text : List Byte) : (text.map Instr.data).filterMap dataByte? = text := by
  rw [List.filterMap_map]
  exact List.filterMap_some

theorem filterMap_dataByte?_setpos1 (col : BitVec 4) (is : List Instr) :
    (Instr.setpos1 col :: is).filterMap dataByte? = is.filterMap dataByte? :=
  List.filterMap_cons_none rfl

/-! ### Printing (R126) -/

@[simp] theorem printFrom_nil (line : Bit) (col : Nat) : printFrom line col [] = ([], (line, col)) := rfl

/-- On the display, a character moves the cursor to the right. -/
theorem printFrom_cons {col : Nat} (line : Bit) (ch : Byte) (rest : List Byte) (h : col < 16) :
    printFrom line col (ch :: rest) =
      (.request (.data ch) :: (printFrom line (col + 1) rest).1, (printFrom line (col + 1) rest).2) :=
  if_neg (by omega)

/-- Past the end of line 1 everything is dropped. -/
@[simp] theorem printFrom_line1End (text : List Byte) : printFrom true 16 text = ([], (true, 16)) := by
  cases text <;> rfl

/-- Past the end of line 0 a print goes on as one from the start of line 1, once that is addressed. -/
theorem printFrom_line0End {text : List Byte} (h : text ≠ []) :
    printFrom false 16 text = (.request (.setpos1 0) :: (printFrom true 0 text).1, (printFrom true 0 text).2) := by
  cases text with
  | nil => contradiction
  | cons ch rest => rfl

/-- What fits in the row of the cursor is sent before the rest. -/
theorem requestsOf_printFrom_append {line : Bit} {col : Nat} {row : List Byte} (rest : List Byte)
    (h : col + row.length ≤ 16) :
    requestsOf (printFrom line col (row ++ rest)).1 =
      row.map .data ++ requestsOf (printFrom line (col + row.length) rest).1 := by
  induction row generalizing col with
  | nil => rfl
  | cons ch row ih =>
    rw [List.length_cons] at h
    rw [List.cons_append, printFrom_cons _ _ _ (by omega), requestsOf_request_cons, ih (by omega), List.map_cons,
      List.cons_append, List.length_cons, show col + 1 + row.length = col + (row.length + 1) by omega]

/-- A text that fits in the row of the cursor has its characters for requests. -/
theorem requestsOf_printFrom_fits {line : Bit} {col : Nat} {text : List Byte} (h : col + text.length ≤ 16) :
    requestsOf (printFrom line col text).1 = text.map .data := by
  simpa using requestsOf_printFrom_append (line := line) [] h

/-- A longer text fills the row of the cursor and goes on past its end. -/
theorem requestsOf_printFrom_fillsRow {col : Nat} {text : List Byte} (line : Bit) (hcol : col ≤ 16)
    (h : 16 - col ≤ text.length) :
    requestsOf (printFrom line col text).1 =
      (text.take (16 - col)).map .data ++ requestsOf (printFrom line 16 (text.drop (16 - col))).1 := by
  have hlength : (text.take (16 - col)).length = 16 - col := List.length_take_of_le h
  have hrow := requestsOf_printFrom_append (line := line) (col := col) (row := text.take (16 - col))
    (text.drop (16 - col)) (by omega)
  rwa [List.take_append_drop, hlength, Nat.add_sub_of_le hcol] at hrow

/-- On line 1 a print sends what fits. -/
theorem requestsOf_printFrom_line1 {col : Nat} (text : List Byte) (hcol : col ≤ 16) :
    requestsOf (printFrom true col text).1 = (text.take (16 - col)).map .data := by
  by_cases h : 16 - col ≤ text.length
  · simp [requestsOf_printFrom_fillsRow true hcol h]
  · rw [requestsOf_printFrom_fits (by omega), List.take_of_length_le (by omega)]

/-- A print from line 0 that passes column 15 fills the row, addresses line 1 and sends what fits there. -/
theorem requestsOf_printFrom_wraps {col : Nat} {text : List Byte} (hcol : col ≤ 16) (h : 16 - col < text.length) :
    requestsOf (printFrom false col text).1 =
      (text.take (16 - col)).map .data ++ .setpos1 0 :: ((text.drop (16 - col)).take 16).map .data := by
  have hrest : text.drop (16 - col) ≠ [] := by simpa [List.drop_eq_nil_iff] using h
  rw [requestsOf_printFrom_fillsRow false hcol h.le, printFrom_line0End hrest, requestsOf_request_cons,
    requestsOf_printFrom_line1 _ (Nat.zero_le 16)]

/-- Settles O52: on line 1 the row decides; on line 0 the text fits in the row or wraps once. -/
theorem printSendsWhatFitsInOrder : Obligations.PrintSendsWhatFitsInOrder := by
  intro line col text hcol
  rw [dataBytesOf_eq_filterMap]
  cases line with
  | true =>
    rw [requestsOf_printFrom_line1 text hcol, filterMap_dataByte?_data]
    simp
  | false =>
    by_cases h : 16 - col < text.length
    · have hroom : 32 - col = 16 - col + 16 := by omega
      have hrow : (text.take (16 - col)).length = 16 - col := List.length_take_of_le h.le
      rw [requestsOf_printFrom_wraps hcol h]
      refine ⟨?_, ?_, fun _ _ => ?_⟩
      · rw [List.filterMap_append, filterMap_dataByte?_setpos1, filterMap_dataByte?_data, filterMap_dataByte?_data,
          ← List.take_add, ← hroom]
        rfl
      · simp [h, hroom, List.take_add, Nat.add_assoc]
      · rw [List.getElem?_append_right (by simp), List.length_map, hrow, Nat.sub_self]
        rfl
    · have hall : text.take (32 - col) = text := List.take_of_length_le (by omega)
      rw [requestsOf_printFrom_fits (by omega), filterMap_dataByte?_data]
      simp [h, hall]

/-- Settles O55: a cleared and a freshly initialized display both have the cursor at (0,0). -/
theorem printAfterClearIsPrintAfterInit : Obligations.PrintAfterClearIsPrintAfterInit :=
  fun _ _ _ _ _ _ _ _ => ⟨rfl, rfl, rfl, fun _ => rfl⟩

/-! ### Positioning the cursor (R125) -/

/-- R10: the column is added to the address of the line. -/
theorem encode_cursorRequest (line : Bit) {n : Nat} (h : n < 16) :
    encode (cursorRequest line (BitVec.ofNat 4 n)) =
      .request (requestWord 0b010 ((if line then 0xC0#8 else 0x80#8) + BitVec.ofNat 8 n)) := by
  have hcol : (BitVec.ofNat 4 n).setWidth 8 = BitVec.ofNat 8 n := BitVec.setWidth_ofNat_of_le_of_lt (by decide) h
  cases line
  · exact congrArg (fun x => Encoded.request (requestWord 0b010 (0x80#8 + x))) hcol
  · exact congrArg (fun x => Encoded.request (requestWord 0b010 (0xC0#8 + x))) hcol

/-- Settles O51, by the check of the column. -/
theorem setCursorChecksItsColumn : Obligations.SetCursorChecksItsColumn := by
  refine fun line column c => ⟨?_, fun hout => ?_⟩
  · rintro n rfl hn
    refine ⟨_, ?_, encode_cursorRequest line hn⟩
    rw [clientSetCursor, if_pos (by omega)]
    rfl
  · rw [clientSetCursor, if_neg (by omega)]
    rfl

/-! ### Errors are statuses (R123, R130 to R132) -/

@[simp] theorem illegalWord_initWord (f c b : Bit) : illegalWord (initWord f c b) = false := by
  revert f c b
  decide
@[simp] theorem illegalWord_cmdWord (p : Byte) : illegalWord (cmdWord p) = false := by
  simp [illegalWord, cmdWord]
@[simp] theorem illegalWord_dataWord (p : Byte) : illegalWord (dataWord p) = false := by
  simp [illegalWord, dataWord]

/-- R102: what INIT answers. -/
theorem requestStatus_initWord (f c b : Bit) (s : State) :
    requestStatus (initWord f c b) s =
      if !s.ports.BIND_OK then .pinUnavailable else if !s.ports.TIMING_OK then .timingPrereq else .ok := by
  simp [requestStatus]

/-- R95: what CMD answers. -/
theorem requestStatus_cmdWord (p : Byte) (s : State) :
    requestStatus (cmdWord p) s = if s.DSTATE = .ready then .ok else .notReady := by
  simp [requestStatus]

/-- R95: what DATA answers. -/
theorem requestStatus_dataWord (p : Byte) (s : State) :
    requestStatus (dataWord p) s = if s.DSTATE = .ready then .ok else .notReady := by
  simp [requestStatus]

/-- R131: Open fails as INIT does, and where INIT succeeds leaves the cursor at (0,0). -/
theorem clientOpen_eq_requestStatus (f c b : Bit) (cl : Client) (s : State) :
    clientOpen f c b s.ports.BIND_OK s.ports.TIMING_OK cl =
      ⟨statusError (requestStatus (initWord f c b) s), [.presentInit f c b s.ports.BIND_OK s.ports.TIMING_OK],
        if requestStatus (initWord f c b) s = .ok then cl.home else cl⟩ := by
  rw [requestStatus_initWord]
  cases hbind : s.ports.BIND_OK with
  | false => rfl
  | true => cases s.ports.TIMING_OK <;> rfl

/-- R123, R134: an operation that needs Ready and cannot fail otherwise has the error of a CMD or DATA. -/
theorem whenReady_did_error {ready : Bit} {s : State} (hready : ready = true ↔ s.DSTATE = .ready) (c d : Client)
    (acts : List ClientAction) :
    (c.whenReady ready (d.did acts)).error = statusError (if s.DSTATE = .ready then .ok else .notReady) := by
  rw [← if_congr hready rfl rfl]
  cases ready <;> rfl

/-- Settles O54: Reinitialize is Open; clear and print need Ready, as CMD and DATA do. -/
theorem hostErrorsAreTheBlocksStatuses : Obligations.HostErrorsAreTheBlocksStatuses := by
  intro f c b ready repaints stepTime cl s hready
  refine ⟨⟨initWord f c b, rfl, clientOpen_eq_requestStatus f c b cl s⟩, ?_, fun ch text => ?_⟩
  · exact (whenReady_did_error hready _ _ _).trans (congrArg statusError (requestStatus_cmdWord 0x01 s).symm)
  · exact (whenReady_did_error hready _ _ _).trans (congrArg statusError (requestStatus_dataWord ch s).symm)

/-! ### Writing and reading (R128, R129) -/

/-- R124, R126, R123: a repaint sends clear and the text in Ready, otherwise nothing. -/
theorem clientRepaint_actions (ready : Bit) (c : Client) :
    (clientRepaint ready c).actions = if ready then .request .clear :: (printFrom false 0 c.buffer).1 else [] := by
  cases ready <;> rfl

/-- R128: a write keeps its text, in Ready or not. -/
@[simp] theorem clientWrite_buffer (ready : Bit) (bytes : List Byte) (c : Client) :
    (clientWrite ready bytes c).result.client.buffer = normalizeTerminator (bytes.take 32) :=
  clientRepaint_buffer ..

/-- R129: what a read repaints is decided apart from its bytes. -/
theorem clientRead_actions (ready repaints : Bit) (offset n : Nat) (c : Client) :
    (clientRead ready repaints offset n c).actions =
      if ready && repaints then .request .clear :: (printFrom false 0 c.buffer).1 else [] := by
  cases repaints with
  | false => rw [Bool.and_false]; rfl
  | true => rw [Bool.and_true]; exact clientRepaint_actions ready c

/-- R129: a read leaves the text alone. -/
@[simp] theorem clientRead_buffer (ready repaints : Bit) (offset n : Nat) (c : Client) :
    (clientRead ready repaints offset n c).client.buffer = c.buffer := by
  cases repaints with
  | false => rfl
  | true => exact clientRepaint_buffer ready c

/-- R129: a read from the start, of at least its length, returns the text. -/
theorem clientRead_bytes_of_start {n : Nat} {c : Client} (ready repaints : Bit) (h : c.buffer.length ≤ n) :
    (clientRead ready repaints 0 n c).bytes = c.buffer :=
  List.take_of_length_le h

/-- R129: "end-of-data signal". -/
theorem clientRead_bytes_of_end {offset : Nat} {c : Client} (ready repaints : Bit) (n : Nat)
    (h : c.buffer.length ≤ offset) : (clientRead ready repaints offset n c).bytes = [] :=
  (congrArg (List.take n) (List.drop_eq_nil_of_le h)).trans List.take_nil

/-- Settles O50: the write is a repaint of the text it keeps, and a read looks at that text alone. -/
theorem writeThenReadReturnsTheTextKept : Obligations.WriteThenReadReturnsTheTextKept := by
  intro ready bytes c text w d
  have hbuffer : d.buffer = text := clientWrite_buffer ready bytes c
  have haccepted : w.accepted = min 32 bytes.length := List.length_take
  have hlength : d.buffer.length = min 32 bytes.length := by
    rw [hbuffer, normalizeTerminator_length, List.length_take]
  have htruncated : w.truncated = true ↔ w.accepted < bytes.length := decide_eq_true_iff
  refine ⟨by omega, htruncated.trans (by omega), hbuffer, ?_, ?_,
    fun ready' repaints offset n => ⟨?_, fun h => ?_, ?_, ?_⟩⟩
  · rintro rfl
    exact ⟨rfl, rfl, rfl⟩
  · rintro rfl
    exact ⟨rfl, rfl, rfl, rfl⟩
  · rw [clientRead_bytes_of_start _ _ (by omega), hbuffer]
  · exact clientRead_bytes_of_end _ _ _ (by omega)
  · rw [clientRead_buffer, hbuffer]
  · rw [clientRead_actions, hbuffer]

end Sys2Proof.Machine

/-! How requests end (R27, R134 to R136, R148). A request is turned away, fails into Faulted, or is performed: in each
case its run ends with one response, and a failure shows at most the two records of a release. An idle block waits. -/
namespace Sys2Proof.Machine

open Sys2Proof.Safety

/-! ### Waiting -/

/-- R46, R148: an idle block with no request waits. -/
theorem step_idle {s : State} (hr : s.ports.RESET = false) (hb : s.BUSY = false) (hv : s.ports.REQ_VALID = false) :
    step s = .next (nextInputs false s) := by
  simp [step, hr, hb, hv]

/-- With its inputs put back, a state whose inputs moved on is what it was. -/
theorem nextInputs_restoreInputs (taken : Bool) (s : State) :
    { nextInputs taken s with ports := s.ports, script := s.script } = s := by
  unfold nextInputs
  split
  · rfl
  · split <;> rfl

/-- Settles O6: the step of an idle block moves the inputs on and does nothing else. -/
theorem idleBlockWaits : Obligations.IdleBlockWaits :=
  fun s hr hb hv => ⟨_, step_idle hr hb hv, nextInputs_restoreInputs false s⟩

/-! ### How a request ends -/

/-- R102: what an INIT without a prerequisite answers, BIND_OK being looked at first. -/
theorem requestStatus_initWord_of_missing {s : State} (h : s.ports.BIND_OK = false ∨ s.ports.TIMING_OK = false)
    (f c b : Bit) :
    requestStatus (initWord f c b) s = if s.ports.BIND_OK then .timingPrereq else .pinUnavailable := by
  rw [requestStatus_initWord]
  cases hbind : s.ports.BIND_OK
  · rfl
  · simp [h.resolve_left (by simp [hbind])]

/-- R120: what RELEASE answers. -/
theorem requestStatus_releaseWord (s : State) : requestStatus releaseWord s = .ok := by
  simp [requestStatus, illegalWord, releaseWord]

/-- R27, R135: the request runs to its end, answers with this status, and, if that is a failure, has recorded nothing or
the release of the old binding. -/
def EndsWith (i : Instr) (st : Status) (s : State) : Prop :=
  ∃ n u, runsTo i s n u ∧ completedWith st s u ∧ (st ≠ .ok → u.trace = s.trace ∨ u.trace = s.trace ++ releaseRecords s)

section ends
variable {i : Instr} {s : State} (hs : canRun s)
include hs

/-- R69, R95. -/
theorem endsWith_turnedAway {w : ReqWord} {st : Status} (hexec : exec i s = .next (accept w (turnedAway st) s)) :
    EndsWith i st s := by
  obtain ⟨u, hruns, hcompleted, -, -, -, -, htrace, -⟩ := runsTo_turnedAway hs hexec
  exact ⟨1, u, hruns, hcompleted, fun _ => .inl htrace⟩

/-- R95 to R97: a request with the program of a CMD or a DATA sends its byte in Ready and is turned away elsewhere. -/
theorem endsWith_sendInReady {w : ReqWord} {b : Byte} {rs : Bit} {tpost : Nat}
    (hexec : exec i s = .next (accept w (if s.DSTATE = .ready then
      byteTransfer s.cfg.timing b rs tpost ++ [.complete .ok] else turnedAway .notReady) s)) :
    EndsWith i (if s.DSTATE = .ready then .ok else .notReady) s := by
  split at hexec
  next hready =>
    obtain ⟨u, hruns, -, hcompleted, -⟩ := runsTo_sendsByte hs hexec
    rw [if_pos hready]
    exact ⟨13, u, hruns, hcompleted, absurd rfl⟩
  next hready =>
    rw [if_neg hready]
    exact endsWith_turnedAway hs hexec

/-- R102, R116: INIT fails into Faulted or sends its sequence. -/
theorem endsWith_init (f c b : Bit) : EndsWith (.init f c b) (requestStatus (initWord f c b) s) s := by
  by_cases hmissing : s.ports.BIND_OK = false ∨ s.ports.TIMING_OK = false
  · obtain ⟨u, hruns, hcompleted, -, -, -, -, -, -, -, -, -, -, -, -, -, htrace⟩ :=
      initFailsIntoFaulted f c b s hs hmissing
    rw [requestStatus_initWord_of_missing hmissing]
    exact ⟨_, u, hruns, hcompleted, fun _ => .inr htrace⟩
  · obtain ⟨hbind, htiming⟩ : s.ports.BIND_OK = true ∧ s.ports.TIMING_OK = true := by simpa using hmissing
    obtain ⟨u, -, hruns, hcompleted, -⟩ := initSucceedsAndSendsTheSequence f c b s hs hbind htiming
    rw [requestStatus_initWord, hbind, htiming]
    exact ⟨_, u, hruns, hcompleted, absurd rfl⟩

/-- R120: RELEASE cannot fail. -/
theorem endsWith_release : EndsWith .release .ok s := by
  cases hoe : s.OE
  case true =>
    obtain ⟨u, hruns, hcompleted, -⟩ := releaseWithABindingLetsTheLinesGoLow s hs hoe
    exact ⟨4, u, hruns, hcompleted, absurd rfl⟩
  case false =>
    obtain ⟨u, hruns, hcompleted, -⟩ := releaseWithoutABindingTouchesNoLine s hs hoe
    exact ⟨3, u, hruns, hcompleted, absurd rfl⟩

/-- R136: whatever the request, it ends with the status of its word. -/
theorem request_endsWith {w : ReqWord} (hwf : i.wf = true) (hw : encode i = .request w) :
    EndsWith i (requestStatus w s) s := by
  cases i
  case lcdWake | lcdMode4 | lcdFuncset | lcdDispoff | lcdClear | lcdEntry | lcdDispon | lcdCmd | lcdData => cases hw
  case init f c b => cases hw; exact endsWith_init hs f c b
  case data p => cases hw; exact requestStatus_dataWord p s ▸ endsWith_sendInReady hs rfl
  case release => cases hw; exact requestStatus_releaseWord s ▸ endsWith_release hs
  case cmd | clear | home | setpos0 | setpos1 | shiftl | shiftr =>
    cases hw
    exact requestStatus_cmdWord _ s ▸ endsWith_sendInReady hs rfl
  case illegalOp000 | illegalInitRsvd | illegalReleasePayload | illegalOp101 | illegalOp110 | illegalOp111 =>
    obtain ⟨hillegal, -⟩ := illegalRequestChangesNothing _ w s hwf hw (by simp)
    rw [requestStatus, if_pos hillegal]
    exact endsWith_turnedAway hs rfl

end ends

/-- R101: without an old binding there is nothing to record. -/
theorem releaseRecords_cases (s : State) : releaseRecords s = [] ∨
    releaseRecords s = [⟨s.now, true, false, false, 0#4⟩, ⟨s.now, false, false, false, 0#4⟩] := by
  unfold releaseRecords
  split
  · exact .inr rfl
  · exact .inl rfl

/-- R85: the records of a release show no pulse. -/
theorem pulses_releaseRecords (s : State) : pulses (releaseRecords s) = [] := by
  obtain h | h := releaseRecords_cases s
  all_goals rw [h]; rfl

/-- Settles O23: every request ends with the status of its word. -/
theorem everyRequestCompletesWithItsStatus : Obligations.EveryRequestCompletesWithItsStatus := by
  intro i w s hwf hw hs
  obtain ⟨n, u, hruns, hcompleted, -⟩ := request_endsWith hs hwf hw
  exact ⟨n, u, hruns, hcompleted⟩

/-- Settles O24: what a failed request has recorded, nothing or a release, shows no pulse. -/
theorem failedRequestEmitsNoPulse : Obligations.FailedRequestEmitsNoPulse := by
  intro i w s hwf hw hs hfailed
  obtain ⟨n, u, hruns, ⟨-, hidle, -⟩, hrecorded⟩ := request_endsWith hs hwf hw
  obtain htrace | htrace := hrecorded hfailed
  · exact ⟨n, u, [], hruns, hidle, by simpa using htrace, rfl, .inl rfl⟩
  · exact ⟨n, u, releaseRecords s, hruns, hidle, htrace, pulses_releaseRecords s, releaseRecords_cases s⟩

end Sys2Proof.Machine

/-! Durations and reset (R149, R164). A request lasts at least the floors of the waits of its transfers; while RESET = 1
a step resets the block and no transfer is performed. -/
namespace Sys2Proof.Machine

open Sys2Proof.Safety

/-! ### Minimum durations (R164) -/

/-- R90, R93: whatever its waits draw, a byte transfer lasts at least the floors of its two nibbles. -/
theorem byteSent_duration {b : Byte} {rs : Bit} {tpost : Nat} {s u : State} (h : byteSent b rs tpost s u) :
    s.now + (s.cfg.timing.T_SETUP_MIN + s.cfg.timing.T_EN_HIGH_MIN + s.cfg.timing.T_SETTLE_MIN) +
      (s.cfg.timing.T_SETUP_MIN + s.cfg.timing.T_EN_HIGH_MIN + max s.cfg.timing.T_SETTLE_MIN tpost) ≤ u.now := by
  obtain ⟨-, -, -, -, hnow, -⟩ := h
  rw [hnow, nibbleEnd, nibbleEnd]
  omega

/-- R118: a chain of pulses lasts at least the set-up and the width of each pulse and all its gaps. -/
theorem PulseChain.duration {T : Timing} {t e : Nat} {gs : List Nat} {ps : List (Nat × Nat)}
    (h : PulseChain T t gs ps e) : t + gs.length * (T.T_SETUP_MIN + T.T_EN_HIGH_MIN) + gs.sum ≤ e := by
  induction gs generalizing t ps with
  | nil =>
    cases ps with
    | nil => simpa [PulseChain] using h
    | cons => exact h.elim
  | cons g gs ih =>
    cases ps with
    | nil => exact h.elim
    | cons p ps =>
      obtain ⟨hsetup, hwidth, hrest⟩ := h
      have hlater := ih hrest
      rw [List.length_cons, Nat.succ_mul, List.sum_cons]
      omega

/-- R106, R118: the floors after the fourteen pulses of the sequence, added up. -/
theorem sum_initGaps (T : Timing) :
    (initGaps T ++ [T.T_SETTLE_MIN]).sum =
      T.T_WAKE1_MIN + 2 * T.T_WAKE2_MIN + 10 * T.T_SETTLE_MIN + T.T_CLEAR_MIN := by
  simp only [initGaps, List.sum_append, List.sum_cons, List.sum_nil, List.sum_replicate, smul_eq_mul]
  omega

/-- R164: a successful INIT lasts at least its power-up wait and its chain of fourteen pulses. -/
theorem initSent_duration {f c b : Bit} {s v : State} (h : InitSent f c b s v) :
    s.now + s.cfg.timing.T_POWERUP_MIN + 14 * (s.cfg.timing.T_SETUP_MIN + s.cfg.timing.T_EN_HIGH_MIN) +
      (s.cfg.timing.T_WAKE1_MIN + 2 * s.cfg.timing.T_WAKE2_MIN + 10 * s.cfg.timing.T_SETTLE_MIN +
        s.cfg.timing.T_CLEAR_MIN) ≤ v.now := by
  obtain ⟨new, -, -, hchain⟩ := h.shows
  rw [← sum_initGaps]
  exact hchain.duration

/-- Settles O26: a byte lasts its two nibbles, INIT its power-up and its chain of pulses. A wait whose floor is the
larger of two lasts at least either, so the orderings of R7 are not needed for these bounds. -/
theorem requestsTakeAtLeastTheirMinimumDuration : Obligations.RequestsTakeAtLeastTheirMinimumDuration := by
  intro s hs _
  refine ⟨fun p hready => ?data, fun p hready => ?cmd, fun f c b hbind htiming => ?init⟩
  case data =>
    obtain ⟨u, hruns, hsent, -⟩ := dataInReadySendsItsByte p s hs hready
    have hduration := byteSent_duration hsent
    exact ⟨u, hruns, by omega⟩
  case cmd =>
    obtain ⟨u, hruns, hsent, -⟩ := cmdInReadySendsItsByte p s hs hready
    have hduration := byteSent_duration hsent
    refine ⟨u, hruns, ?_⟩
    split at hduration
    next hlong => rw [if_pos hlong]; omega
    next hshort => rw [if_neg hshort]; omega
  case init =>
    obtain ⟨n, v, hsent, hruns⟩ := runsTo_initSent hs hbind htiming f c b
    have hduration := initSent_duration hsent
    refine ⟨_, hruns, ?_⟩
    rw [advance_now, opComplete_now, opSetState_now, opStep_now]
    omega

/-! ### Reset (R149) -/

/-- R136, R149: reset overrides whatever else the step would do. -/
theorem step_reset {s : State} (hr : s.ports.RESET = true) : step s = .next (nextInputs false (resetBlock s)) :=
  if_pos hr

/-- R149, log 5: closing the observation loses no record and no response, and adds none. -/
theorem closeObservation_history (s : State) :
    (closeObservation s).flatMap Observation.trace = s.earlier.flatMap Observation.trace ++ s.trace ∧
      (closeObservation s).flatMap Observation.responses =
        s.earlier.flatMap Observation.responses ++ s.responses := by
  unfold closeObservation
  split
  next hempty =>
    obtain ⟨htrace, hresponses⟩ : s.trace = [] ∧ s.responses = [] := by simpa using hempty
    simp [htrace, hresponses]
  next => simp

/-- Settles O2: the step resets the block, then moves the inputs on. -/
theorem resetInputResetsTheBlock : Obligations.ResetInputResetsTheBlock := by
  intro s hr
  obtain ⟨htrace, hresponses⟩ := closeObservation_history s
  exact ⟨_, step_reset hr, by simp [htrace, hresponses]⟩

/-- Settles O33: a display row does what its transfer does, which under reset is nothing. -/
theorem noTransferDuringReset : Obligations.NoTransferDuringReset := by
  intro i s hi hr
  rw [exec_displayProgram hi, transfer, if_pos hr]

end Sys2Proof.Machine

/-! The round trip between instructions and their words (R63 to R73, R76, R111 to R115), in both directions. -/
namespace Sys2Proof

/-! ### From an instruction to its word and back -/

/-- R67: a payload made of the three bits of an INIT names that INIT. -/
@[simp] theorem decodeInit_initPayload (f c b : Bit) : decodeInit (initPayload f c b) = .init f c b := by
  revert f c b
  decide

/-- R67, R69: a payload with a reserved bit set. -/
theorem decodeInit_of_reservedSet {p : Byte} (h : p.extractLsb' 3 5 ≠ 0#5) : decodeInit p = .illegalInitRsvd p :=
  if_neg h

/-- R68, R69: a payload other than zero. -/
theorem decodeRelease_of_payload {p : Byte} (h : p ≠ 0#8) : decodeRelease p = .illegalReleasePayload p :=
  if_neg h

/-- R76: the byte of a position on line 0 names that position. -/
@[simp] theorem decodeCommand_setpos0Byte (col : BitVec 4) : decodeCommand (setpos0Byte col) = .setpos0 col := by
  revert col
  decide

/-- R76: the byte of a position on line 1 names that position. -/
@[simp] theorem decodeCommand_setpos1Byte (col : BitVec 4) : decodeCommand (setpos1Byte col) = .setpos1 col := by
  revert col
  decide

/-- R63 to R70, R76: a request word decodes to its instruction's own name. -/
theorem decodeRequest_eq_canon_of_encode {i : Instr} {w : ReqWord} (hwf : i.wf = true) (hw : encode i = .request w) :
    decodeRequest w = i.canon := by
  cases i
  case lcdWake | lcdMode4 | lcdFuncset | lcdDispoff | lcdClear | lcdEntry | lcdDispon | lcdCmd | lcdData => cases hw
  all_goals obtain rfl := Encoded.request.inj hw
  case illegalInitRsvd p => exact (decodeRequest_init p).trans (decodeInit_of_reservedSet (bne_iff_ne.1 hwf))
  case illegalReleasePayload p => exact (decodeRequest_release p).trans (decodeRelease_of_payload (bne_iff_ne.1 hwf))
  case clear | home | shiftl | shiftr | release => rfl
  all_goals simp [Instr.canon]

/-- R73, R111 to R115: a transferred byte decodes to its instruction's own name. -/
theorem decodeByte_eq_canon_of_encode {i : Instr} {rs : Bit} {b : Byte} (hw : encode i = .byte rs b) :
    decodeByte rs b = i.canon := by
  cases i
  case lcdFuncset f => cases hw; revert f; decide
  case lcdDispon c b => cases hw; revert c b; decide
  case lcdDispoff | lcdClear | lcdEntry | lcdCmd | lcdData => cases hw; rfl
  all_goals cases hw

/-- R72, R109, R110: a lone nibble decodes to its instruction. -/
theorem decodeNibble_eq_canon_of_encode {i : Instr} {rs : Bit} {d : Nibble} (hw : encode i = .nibble rs d) :
    decodeNibble rs d = .ok i.canon := by
  cases i
  case lcdWake | lcdMode4 => cases hw; rfl
  all_goals cases hw

/-- Log 8: only the byte of a CMD or of an LCD_CMD can be a row of its own. -/
theorem canon_of_notCommand {i : Instr} (hcmd : ∀ p, i ≠ .cmd p) (hlcdCmd : ∀ p, i ≠ .lcdCmd p) : i.canon = i := by
  cases i
  case cmd p => exact absurd rfl (hcmd p)
  case lcdCmd p => exact absurd rfl (hlcdCmd p)
  all_goals rfl

/-- Settles O34, by the three formats of an encoding. -/
theorem decodeOfEncodeIsTheInstruction : Obligations.DecodeOfEncodeIsTheInstruction := by
  intro i hwf
  refine ⟨?_, canon_of_notCommand⟩
  cases hw : encode i with
  | request w => exact congrArg _ (decodeRequest_eq_canon_of_encode hwf hw)
  | nibble rs d => exact decodeNibble_eq_canon_of_encode hw
  | byte rs b => exact congrArg _ (decodeByte_eq_canon_of_encode hw)

/-! ### From a word to its instruction and back -/

/-- R72: only the nibbles of the wake steps and of the switch to 4-bit mode decode, each to its instruction. -/
theorem decodeNibble_wf_encode {rs : Bit} {d : Nibble} {i : Instr} (h : decodeNibble rs d = .ok i) :
    i.wf = true ∧ encode i = .nibble rs d := by
  unfold decodeNibble at h
  split at h
  next hwake =>
    obtain ⟨rfl, rfl⟩ : rs = false ∧ d = WAKE_NIBBLE := by simpa using hwake
    cases h
    exact ⟨rfl, rfl⟩
  next =>
    split at h
    next hmode =>
      obtain ⟨rfl, rfl⟩ : rs = false ∧ d = MODE4_NIBBLE := by simpa using hmode
      cases h
      exact ⟨rfl, rfl⟩
    next => cases h

/-- R73: the instruction a byte decodes to is well-formed and has that byte. -/
theorem decodeByte_wf_encode (rs : Bit) (b : Byte) :
    (decodeByte rs b).wf = true ∧ encode (decodeByte rs b) = .byte rs b := by
  cases rs with
  | true => exact ⟨rfl, rfl⟩
  | false =>
    obtain ⟨hwf, hword, -⟩ := Laws.CanonKeepsWord.transfer_byte b
    exact ⟨hwf, hword⟩

/-- Settles O35, by the three formats. -/
theorem encodeOfDecodeIsTheWord : Obligations.EncodeOfDecodeIsTheWord := by
  intro e i h
  cases e with
  | request w =>
    obtain rfl := Except.ok.inj h
    exact (decodeRequest_wf_encode w).symm
  | nibble rs d => exact (decodeNibble_wf_encode h).symm
  | byte rs b =>
    obtain rfl := Except.ok.inj h
    exact (decodeByte_wf_encode rs b).symm

end Sys2Proof
